-- ==== Sys2Proof/Word.lean ====
section
/-! DEFINITION. The plain words of the GH-48's interfaces: the byte and the 32-bit window word, and the index types of
the parts the manual numbers (00_scope.md, "Device at a glance"). -/

namespace Sys2Proof

/-- One byte of a window, a frame, an order or the flash (R201). -/
abbrev Byte := BitVec 8

/-- One 32-bit word of a window (R191), and the width of network time, match references and serials (R201). -/
abbrev Word := BitVec 32

/-- Venues 0-11 (R1). -/
abbrev Venue := Fin 12

/-- Trunks 0-15 (R1). -/
abbrev Trunk := Fin 16

/-- Lanes 0-127; lane number = trunk * 8 + lane index (R1). -/
abbrev Lane := Fin 128

/-- Handoff ports 0-31 (R2). -/
abbrev HandoffPort := Fin 32

/-- Feed nodes 0-47 (R80). -/
abbrev FeedNode := Fin 48

/-- Slots 0-255 of the booking table (R32). -/
abbrev SlotId := Fin 256

/-- A set of lane indices 0-7 of one trunk, one bit per lane index (R201). -/
abbrev LaneSet := BitVec 8

/-- A set of fault sources, in the bit positions of R202: bits 0-8 trunk, 9-12 port, 13-21 device sources. -/
abbrev SourceSet := BitVec 22

/-- A set of the seven notice classes, in the bit positions of R203: BOOKING, PROTECTION, BILLING, COMMAND,
TRUNK_FAULT, PORT_FAULT, DEVICE_FAULT. -/
abbrev NoticeSet := BitVec 7

end Sys2Proof
end

