-- ==== Sys2Proof/Syntax.lean ====
section
/-! DEFINITION. The commands and events the block takes: one constructor of Instr per row of spec/opcode_table.json, with
the operands the row's rule gives it. A command that the command engine takes from a window (the rows from BAD_COMMAND on)
has no operand: its port is the one R194's rotation reaches and its parameters stand in that port's parameter area (R193). -/

namespace Sys2Proof

/-- The four control ports (R190). -/
inductive PortId where
  | a | b | c | d
deriving DecidableEq, Repr

/-- What one lane reports in a SECOND frame (R137, R204). -/
structure LaneReport where
  errored  : BitVec 16
  defect   : Bool
  upstream : Bool
deriving DecidableEq, Repr

/-- How far a flash write that was cut off had come (R16): the image area still holds what it held, or it was erased and
its first `n` bytes were written, or an erase or a byte was under way and the area reads `found`. -/
inductive StoreCut where
  | untouched
  | written (n : Nat)
  | left (found : List Byte)
deriving DecidableEq, Repr

/-- How the flash ended an erase, write and read-back sequence (R16, R18). -/
inductive StoreResult where
  | verified
  | differs (found : List Byte)
  | eraseRefused
  | writeRefused (n : Nat)
  | timedOut (cut : StoreCut)
deriving DecidableEq, Repr

/-- The commands and events of the opcode table. -/
inductive Instr where
  -- resets and start-up (R197, R198)
  | powerOn (cut : StoreCut)
  | resetLine (cut : StoreCut)
  | selfCheckEnd (passed : Bool)
  | storeLoadEnd (answers : Bool)
  | restartWriteEnd (result : StoreResult)
  -- network time (R21 to R26)
  | boundary
  | referencePulse (delay : Nat)
  | referenceLoss
  -- the boundary as the blocks take it (R22, R57, R136, R162)
  | bkcBoundary
  | lmnBoundary
  | svmBoundary
  -- the inbound Line Status Link (R126 to R143)
  | alarmFrame (trunk : Byte) (los : Bool) (frameLoss upstream : LaneSet)
  | secondFrame (trunk label : Byte) (lanes : Vector LaneReport 8)
  | powerFrame (trunk : Byte) (raw : BitVec 16) (valid : Bool)
  | portstatFrame (port : Byte) (txFault farEndLink : Bool)
  | lslFrameDiscard (frame : List Byte)
  | cleanIntervalExpiry (trunk : Trunk)
  -- the Fabric Order Link (R90 to R96)
  | fabricAck (tag : Byte)
  | fabricNak (tag reason : Byte)
  | folReplyNotAdmitted (reply : List Byte)
  | resetNotice
  | orderTimerExpiry
  -- the timers of the selectors (R106, R109, R110)
  | holdOffExpiry (slot : SlotId)
  | waitToRestoreExpiry (slot : SlotId)
  | returnTimerExpiry (slot : SlotId)
  -- the end of a CONFIG_SAVE (R16)
  | configSaveEnd (result : StoreResult)
  -- master writes to a window (R190 to R192, R157)
  | commandWordWrite (port : PortId) (value : Word)
  | noticeEnableWrite (port : PortId) (value : Word)
  | parameterAreaWrite (port : PortId) (word : Fin 256) (value : Word)
  | windowWrite (port : PortId) (offset : Nat) (value : Word)
  -- the command engine takes a posted command (R193)
  | badCommand
  | bookSubmit
  | bookAmend
  | bookEnd
  | bookCancel
  | bookExtend
  | bookQuery
  | timeSet
  | configWrite
  | configRead
  | configSave
  | deviceRestart
  | profileWriteLevels
  | profileWriteSelect
  | calWrite
  | tariffWrite
  | actionWrite
  | portTest
  | portUntest
  | fabricResync
  | protForce
  | protLock
  | protClear
  | trunkQuarantine
  | trunkRelease
  | faultClear
  | maskSet
  | maskClear
  | maskWrite
  | groupWrite
  | meterRead
  | billFetch
  | billRelease
  | tableRead
  | tableNext
  | noticeClear
deriving DecidableEq, Repr

end Sys2Proof
end

