-- ==== Sys2Proof/Decode.lean ====
section
/-! DEFINITION. Decoding of a table word. The GH-48 is a block: no row of its table gives bits, so no word spells a command
(log entry 1). What arrives encoded, the units of the links and the words of the windows, is read in Machine/Framing.lean and
Machine/Windows.lean. -/

namespace Sys2Proof

/-- The command a table word spells: no row of the table gives bits. -/
def decodeTableWord (_nbits _w : Nat) : Option Instr := none

end Sys2Proof
end

