-- ==== Sys2Proof/Config.lean ====
section
/-! DEFINITION. The fixed numbers of the GH-48 that the manual states outright. The part has no free value: the manual
leaves no result of a command undefined (NOTES.md, "Assumptions"). -/

namespace Sys2Proof.Config

/-- An oscillator second, in milliseconds (R21). -/
def secondMs : Nat := 1000

/-- The longest wait for a reference pulse, in milliseconds (R24, R25, R26). -/
def lossMs : Nat := 1200

/-- The least and the greatest spacing of two reference pulses that is correct, in milliseconds, both inclusive (R23). -/
def spacingLow : Nat := 999
def spacingHigh : Nat := 1001

/-- The time within which a flash write completes, in milliseconds (R16, R18). -/
def storeMs : Nat := 400

/-- The first value TIME_SET refuses (R31). -/
def timeSetLimit : Nat := 0xF0000000

/-- How far ahead of now a start may lie (R39). -/
def startHorizon : Nat := 2592000

/-- The last instant of network time (R38). -/
def lastInstant : Nat := 4294967295

/-- Feed nodes, sharers of a protection lane, and the queue's capacity and warning level (R47, R43, R183, R185). -/
def nodeCount : Nat := 48
def maxSharers : Nat := 4
def queueCapacity : Nat := 512
def queueHigh : Nat := 448

/-- The errored-block counts of R126 and R139. -/
def maxErrored : Nat := 8000
def severeErrored : Nat := 2400

/-- The bytes of a parameter area and of a response area (R190). -/
def parameterBytes : Nat := 1024
def responseBytes : Nat := 960

end Sys2Proof.Config
end

