-- ==== Sys2Proof/Machine/State.lean ====
section
/-! DEFINITION. The state of the GH-48, block by block as 00_scope.md's block overview lists them, all of it plain data; the
queue of waiting commands; the fault and refusal reasons; and the state after a device reset. A value that the manual names
in two places and that cannot differ (a port's desired attachment, the notice words, the time mirrors, the selected lane)
is stored once and computed where it is shown: INVENTORY.md lists each. -/

namespace Sys2Proof.Machine

/-! ### Addressed buffers -/

/-- An addressed buffer of bytes: the parameter and response areas (R190) and the flash image area (R10). One canonical
form: addresses strictly rising, no entry equal to what an unlisted address reads as. -/
abbrev Memory := List Host.Cell

/-- What an unlisted byte of a window area reads as: every area is all zero at step 1 of start-up (R190). -/
def windowBlank : Byte := 0x00#8

/-- What an unlisted byte of the flash image area reads as: an erased byte (R10). -/
def flashBlank : Byte := 0xFF#8

/-! ### The configuration image (R1 to R11) -/

/-- A threshold profile (R4); levels in tenths of dBm, h in tenths of dB, f in reports. -/
structure Profile where
  warnLow   : Int
  alarmLow  : Int
  alarmHigh : Int
  h         : Nat
  f         : Nat
deriving DecidableEq, Repr

/-- The action of a source (R6). -/
inductive Action where
  | notify | protect | quarantine
deriving DecidableEq, Repr

/-- A tariff class, and the tariff snapshot of a booking (R7, R49). -/
structure Tariff where
  rb   : Nat
  fo   : Nat
  co   : Nat
  cd   : Nat
  mmin : Nat
  us   : Nat
deriving DecidableEq, Repr

/-- A handoff port's PORT_MAP entry (R2). -/
structure PortMapEntry where
  account : BitVec 16
  enabled : Bool
deriving DecidableEq, Repr

/-- A port's role set (R3). -/
structure RoleSet where
  schedule : Bool
  operate  : Bool
  bill     : Bool
  maintain : Bool
deriving DecidableEq, Repr

/-- The DEFAULTS section (R8). Hold-off and fabric timeout in ms, WTR, release guard and overrun warning in s. -/
structure Defaults where
  holdOff        : Nat
  wtr            : Nat
  releaseGuard   : Nat
  flapLimit      : Nat
  flapExponent   : Nat
  fabricTimeout  : Nat
  overrunWarning : Nat
deriving DecidableEq, Repr

/-- The eight sections of the image (R10). `actions` is indexed by the source's bit position (R202). -/
structure Image where
  venueMap    : Vector (Option Venue) 16
  portMap     : Vector PortMapEntry 32
  roles       : Vector RoleSet 4
  profiles    : Vector Profile 4
  choices     : Vector (Fin 4) 16
  calibration : Vector Int 16
  actions     : Vector Action 22
  tariffs     : Vector Tariff 16
  defaults    : Defaults
deriving DecidableEq, Repr

/-- A flash write in progress (R16, R18): the image formed and the instant the write began. -/
structure StoreWrite where
  bytes   : List Byte
  started : Nat
deriving DecidableEq, Repr

/-- The Configuration Store Controller (R10, R16 to R18). -/
structure Csc where
  image   : Image
  restart : BitVec 16
  unsaved : Bool
  flash   : Memory
  writing : Option StoreWrite
deriving DecidableEq, Repr

/-! ### The Time Base (R20) -/

/-- The reference states (R20). -/
inductive RefState where
  | absent | locked | holdover | relocking
deriving DecidableEq, Repr

/-- The Time Base (R20). `clock` is the oscillator time since the release of reset, in milliseconds; the instants of every
timer of the part are instants of it. `marks` are the MARK frames sent on the outbound LSL since the reset, oldest first
(R28): one event may make several boundaries. -/
structure TimeBase where
  time      : Word
  valid     : Bool
  clock     : Nat
  elapsed   : Nat
  ref       : RefState
  spaced    : Fin 4
  lastPulse : Option Nat
  refLost   : Bool
  marks     : List (List Byte)
deriving DecidableEq, Repr

/-- The boundaries the TB has handed to a block and the block has not yet taken, oldest first, each with the new T (R22). -/
structure Owed where
  bkc : List Word
  lmn : List Word
  svm : List Word
deriving DecidableEq, Repr

/-! ### The Booking Calendar (R32) -/

/-- The name of a booking (R34). -/
structure Handle where
  slot       : SlotId
  generation : Byte
deriving DecidableEq, Repr

/-- The states of a slot that is not FREE (R32). -/
inductive BookingState where
  | pending | armed | live | overrun | settling | unbilled
deriving DecidableEq, Repr

/-- A lane specification (R32, R201). -/
inductive LaneSpec where
  | none | auto | explicit (lane : Lane)
deriving DecidableEq, Repr

/-- The eight meters of a recipient (R167). -/
structure Meters where
  clean       : Nat
  errored     : Nat
  severe      : Nat
  unavailable : Nat
  source      : Nat
  metered     : Nat
  overrun     : Nat
  unmonitored : Nat
deriving DecidableEq, Repr

/-- The charge of one recipient (R176): the amounts, the flags of R180 and R181, and the meters its record will carry. -/
structure Charge where
  gross          : Nat
  credit         : Nat
  net            : Nat
  lateCancel     : Bool
  endedEarly     : Bool
  neverConnected : Bool
  slaBreach      : Bool
  meters         : Meters
deriving DecidableEq, Repr

/-- A booking entry (R32). `charges` are held with it while it stands on the unbilled list (R176). -/
structure Booking where
  state         : BookingState
  matchRef      : Word
  venue         : Venue
  workingSpec   : LaneSpec
  protectSpec   : LaneSpec
  working       : Lane
  protection    : Option Lane
  recipients    : List HandoffPort
  start         : Nat
  plannedEnd    : Nat
  lead          : Nat
  allowance     : Nat
  guard         : Nat
  priority      : Fin 4
  tariffClass   : Fin 16
  tariff        : Tariff
  holdOff       : Option Nat
  wtr           : Option Nat
  submitter     : PortId
  node          : Option FeedNode
  closeTime     : Option Nat
  nodeWait      : Bool
  overrunWarned : Bool
  lateCancel    : Bool
  endedEarly    : Bool
  charges       : List Charge
deriving DecidableEq, Repr

/-- A slot: its generation, and its booking; FREE is the absence of a booking (R33). -/
structure Slot where
  generation : Byte
  booking    : Option Booking
deriving DecidableEq, Repr

/-- The Booking Calendar: the table, the node wait list (R59) and the unbilled list (R68), each list oldest first. -/
structure Bkc where
  slots    : Vector Slot 256
  nodeWait : List SlotId
  unbilled : List SlotId
deriving DecidableEq, Repr

/-! ### The Protection Selector Unit (R100, R117) -/

/-- The eight selector states (06_protection_switching.md, head). -/
inductive SelectorState where
  | unprotected | onWorking | holdOff | waiting | onProtection | waitRestore | forcedProtection | lockedWorking
deriving DecidableEq, Repr

/-- The kinds of selector timer (R100). -/
inductive TimerKind where
  | holdOff | waitToRestore | returnTimer
deriving DecidableEq, Repr

/-- A running selector timer with its expiry instant on the oscillator clock, in ms (R100, R103). -/
structure SelectorTimer where
  kind   : TimerKind
  expiry : Nat
deriving DecidableEq, Repr

/-- A selector (R100). -/
structure Selector where
  handle     : Handle
  state      : SelectorState
  working    : Lane
  protection : Option Lane
  timer      : Option SelectorTimer
  bothFailed : Bool
deriving DecidableEq, Repr

/-- An entry of a waiting list (R118, R123). -/
structure Waiter where
  handle   : Handle
  priority : Fin 4
  joined   : Word
deriving DecidableEq, Repr

/-- The protection record of a lane (R117). -/
structure ProtectionLane where
  holder  : Option Handle
  waiting : List Waiter
deriving DecidableEq, Repr

/-- The PSU: a selector for each slot that has one, a protection record for each lane, and its view of the lanes and
trunks as the FRA last handed it (R102). -/
structure Psu where
  selectors   : Vector (Option Selector) 256
  lanes       : Vector ProtectionLane 128
  failed      : Vector Bool 128
  quarantined : Vector Bool 16
deriving DecidableEq, Repr

/-! ### The Fabric Control Unit (R80, R82, R87) -/

/-- The states of a feed node (R80). -/
inductive NodeState where
  | free | owned | draining
deriving DecidableEq, Repr

/-- A node's confirmed source (R80). -/
inductive Source where
  | none | lane (l : Lane) | unknown
deriving DecidableEq, Repr

/-- A feed node's entry (R80). -/
structure NodeEntry where
  state       : NodeState
  owner       : Option Handle
  desired     : Option Lane
  confirmed   : Source
  established : Bool
  stuck       : Bool
  refusal     : Option Byte
deriving DecidableEq, Repr

/-- A port's attachment (R82). A desired attachment is never `unknown`. -/
inductive Attachment where
  | park | test | node (n : FeedNode) | unknown
deriving DecidableEq, Repr

/-- A LIVE claim (R82). -/
structure LiveClaim where
  handle : Handle
  node   : FeedNode
deriving DecidableEq, Repr

/-- A handoff port's entry (R82); its desired attachment is computed from the claims (R83). -/
structure PortEntry where
  live      : Option LiveClaim
  test      : Bool
  confirmed : Attachment
  stuck     : Bool
  refusal   : Option Byte
deriving DecidableEq, Repr

/-- The fabric orders (R79). -/
inductive OrderKind where
  | clearAll
  | nodeSelect (n : FeedNode) (l : Lane)
  | nodeRelease (n : FeedNode)
  | portJoin (p : HandoffPort) (n : FeedNode)
  | portPark (p : HandoffPort)
  | portTest (p : HandoffPort)
deriving DecidableEq, Repr

/-- The order in flight (R87): the timer is its expiry instant on the oscillator clock. -/
structure InFlight where
  kind   : OrderKind
  tag    : Byte
  sends  : Nat
  expiry : Nat
deriving DecidableEq, Repr

/-- The Fabric Control Unit. `sent` is the last unit sent on the outbound FOL (R89, R204); an
event sends at most one. -/
structure Fcu where
  nodes    : Vector NodeEntry 48
  ports    : Vector PortEntry 32
  inFlight : Option InFlight
  nextTag  : Byte
  sent     : List Byte
deriving DecidableEq, Repr

/-! ### The Line Monitor (R124, R125) -/

/-- The grades of a lane's second and of a recipient's second (R139, R166). -/
inductive Grade where
  | clean | errored | source | severe
deriving DecidableEq, Repr

/-- A filtered power condition with its run count (R124, R134). -/
structure Filter where
  present : Bool
  run     : Nat
deriving DecidableEq, Repr

/-- An awaited second with its end state (R124, R136). -/
structure Awaited where
  second    : Word
  los       : Bool
  frameLoss : LaneSet
deriving DecidableEq, Repr

/-- A graded trunk-second (R140), as stored in the trunk's last closed second. -/
structure ClosedSecond where
  second      : Word
  grades      : Vector Grade 8
  unmonitored : Bool
deriving DecidableEq, Repr

/-- A trunk's line record (R124). The clean-interval timer is its expiry instant on the oscillator clock. -/
structure Line where
  alarmSeen   : Bool
  los         : Bool
  frameLoss   : LaneSet
  upstream    : LaneSet
  raw         : Option Int
  calibrated  : Option Int
  saturated   : Bool
  lowWarn     : Filter
  lowAlarm    : Filter
  highAlarm   : Filter
  flapCounter : Nat
  cleanTimer  : Option Nat
  flapLimit   : Bool
  awaited     : Option Awaited
  reportGap   : Bool
  lateCount   : Nat
  lastClosed  : Option ClosedSecond
deriving DecidableEq, Repr

/-- A handoff port's transmitter record (R125). -/
structure Transmitter where
  seen       : Bool
  txFault    : Bool
  farEndDown : Bool
deriving DecidableEq, Repr

/-- The Line Monitor. `opened`: the second in progress began at a boundary the LMN took while monitoring (R136). -/
structure Lmn where
  monitoring   : Bool
  opened       : Bool
  lines        : Vector Line 16
  transmitters : Vector Transmitter 32
deriving DecidableEq, Repr

/-! ### The Fault Record Array (R145) -/

/-- The service state of a trunk (R150). -/
inductive Service where
  | normal | quarantined
deriving DecidableEq, Repr

/-- A fault record (R145). Bit 7 of `groups` is group 7, which every record is in. -/
structure FaultRecord where
  present : SourceSet
  latched : SourceSet
  mask    : SourceSet
  groups  : Byte
deriving DecidableEq, Repr

/-- What a trunk record carries besides (R145): the lane sets as handed by the LMN and the service state. -/
structure TrunkFault where
  frameLoss : LaneSet
  upstream  : LaneSet
  service   : Service
deriving DecidableEq, Repr

/-- The Fault Record Array: records 0-15 trunks, 16-47 handoff ports, 48 the device. -/
structure Fra where
  records : Vector FaultRecord 49
  trunks  : Vector TrunkFault 16
deriving DecidableEq, Repr

/-! ### The Service Meter (R160) -/

/-- The live defect kept with a snapshot (R163). -/
structure LiveDefect where
  los       : Bool
  frameLoss : Bool
deriving DecidableEq, Repr

/-- What a snapshot records of one recipient (R163). -/
structure RecipientView where
  connected : Bool
  txFault   : Bool
deriving DecidableEq, Repr

/-- The lane grade and unmonitored mark that make a snapshot ready (R164). -/
structure LaneGrade where
  grade       : Grade
  unmonitored : Bool
deriving DecidableEq, Repr

/-- A snapshot (R163). -/
structure Snapshot where
  second    : Word
  lane      : Option Lane
  switchHit : Bool
  views     : List RecipientView
  defect    : Option LiveDefect
  graded    : Option LaneGrade
deriving DecidableEq, Repr

/-- A recipient's availability (R168). -/
inductive Availability where
  | available | unavailable
deriving DecidableEq, Repr

/-- A recipient's last graded second (R163, R173). -/
structure LastGraded where
  second : Word
  grade  : Grade
  defect : Option LiveDefect
deriving DecidableEq, Repr

/-- A recipient record (R167). The pending run is `run` seconds; its grade counts are those of a recovery run. -/
structure RecipientMeter where
  availability  : Availability
  run           : Nat
  runClean      : Nat
  runErrored    : Nat
  runSource     : Nat
  meters        : Meters
  connectedSeen : Bool
  last          : Option LastGraded
deriving DecidableEq, Repr

/-- A booking's metering record (R160). -/
structure MeterRecord where
  node       : Option FeedNode
  switchMark : Bool
  queue      : List Snapshot
  taken      : Word
  recipients : List RecipientMeter
deriving DecidableEq, Repr

/-- The Service Meter: one metering record for each slot that has one. -/
structure Svm where
  records : Vector (Option MeterRecord) 256
deriving DecidableEq, Repr

/-! ### The Billing Queue (R182, R183) -/

/-- A billing record (R182). -/
structure BillRecord where
  serial      : Word
  restart     : BitVec 16
  matchRef    : Word
  handle      : Handle
  tariffClass : Fin 16
  port        : HandoffPort
  account     : BitVec 16
  start       : Nat
  plannedEnd  : Nat
  closeTime   : Nat
  charge      : Charge
deriving DecidableEq, Repr

/-- The Billing Queue: records head first, and the next serial (R183). -/
structure Bq where
  queue      : List BillRecord
  nextSerial : Word
deriving DecidableEq, Repr

/-! ### The Control Port Interface (R190, R192, R194, R196) -/

/-- The result codes, in the order of their numbers 0-20 (R203). -/
inductive Result where
  | done | notPermitted | badCommand | badParameter | notReady | noSuchBooking | wrongState | tooSoon | tooLate
  | timeNotSet | tableFull | laneConflict | noFreeLane | protectionConflict | portConflict | nodeLimit
  | trunkQuarantined | inUse | queueEmpty | notInQueue | storeFailed
deriving DecidableEq, Repr

/-- What a command word reads (R192). -/
inductive CommandWord where
  | ready | posted (code : Word) | taken | done | failed
deriving DecidableEq, Repr

/-- The eight tables, in the order of their identifiers 1-8 (R195, R203). -/
inductive TableId where
  | bookings | trunks | ports | nodes | faults | tariffs | waiting | unbilled
deriving DecidableEq, Repr

/-- A table cursor: a table and a next index, `none` being end (R196). -/
structure Cursor where
  table : TableId
  next  : Option Nat
deriving DecidableEq, Repr

/-- The stored words of one port's window, its sticky flags and its cursor (R190, R156, R196). The presence, status,
notice and mirror words are computed where they are read. -/
structure Window where
  enable   : NoticeSet
  sticky   : NoticeSet
  command  : CommandWord
  code     : Word
  result   : Option Result
  field    : Option Nat
  params   : Memory
  response : Memory
  cursor   : Option Cursor
deriving DecidableEq, Repr

/-- The device status (R190). -/
inductive DeviceStatus where
  | starting | running | halted | defaults
deriving DecidableEq, Repr

/-- Where start-up stands (R198): the self-check of step 2, the load and the restart write of step 3, the CLEAR_ALL of
step 4, the end of start-up (step 5), or HALTED (R199). -/
inductive Phase where
  | selfCheck | load | restartWrite | clearAll | operating | halted
deriving DecidableEq, Repr

/-- The Control Port Interface: the four windows, the rotation pointer, the port whose CONFIG_SAVE the engine serves
(none: the engine is free), the device status, the status start-up will end with (R17), and the start-up phase. -/
structure Cpi where
  windows : Vector Window 4
  pointer : PortId
  serving : Option PortId
  status  : DeviceStatus
  boot    : DeviceStatus
  phase   : Phase
deriving DecidableEq, Repr

/-! ### The device and the state -/

/-- Every piece of state the manual gives the part. -/
structure Device where
  tb   : TimeBase
  owed : Owed
  csc  : Csc
  cpi  : Cpi
  bkc  : Bkc
  psu  : Psu
  fcu  : Fcu
  lmn  : Lmn
  fra  : Fra
  svm  : Svm
  bq   : Bq
deriving DecidableEq, Repr

/-- The device and the queue of commands and events that wait, first in, first out. -/
structure State where
  dev     : Device
  pending : List Instr
deriving DecidableEq, Repr

/-- Why a step stops. -/
inductive Fault where
  /-- Raised by WINDOW_WRITE for an offset of 2,048 or more: the window has no such word (R190). Safe. -/
  | outsideWindow
  /-- Raised by WINDOW_WRITE for an offset that is not a multiple of 4: a window is accessed in whole words (R191). Safe. -/
  | notAWord
deriving DecidableEq, Repr

/-- Why a command has no meaning. -/
inductive Refusal where
  /-- Raised by no arm: every row of the table has its meaning. It stands for a row not yet modelled. Safe. -/
  | notModelled (mnemonic : String)
deriving DecidableEq, Repr

/-! ### Values after a device reset -/

/-- The factory-default action of each source (R6, R11), in the bit positions of R202. -/
def factoryActions : Vector Action 22 :=
  ((((Vector.replicate 22 Action.notify).set 0 .protect).set 2 .protect).set 4 .protect).set 7 .quarantine

/-- The factory-default image (R11, R4 to R8). -/
def factoryImage : Image where
  venueMap    := Vector.replicate 16 none
  portMap     := Vector.replicate 32 ⟨0#16, false⟩
  roles       := (Vector.replicate 4 ⟨false, false, false, false⟩).set 0 ⟨true, true, true, true⟩
  profiles    := Vector.replicate 4 ⟨-180, -220, 0, 10, 3⟩
  choices     := Vector.replicate 16 0
  calibration := Vector.replicate 16 0
  actions     := factoryActions
  tariffs     := Vector.replicate 16 ⟨0, 100, 0, 0, 0, 3600⟩
  defaults    := ⟨50, 300, 60, 5, 8, 40, 120⟩

/-- The Configuration Store Controller after a reset. The flash keeps what it holds. The RAM image before the load of R17
is the factory image (DESIGN CHOICE, log entry 3), the restart number 0 (R190). -/
def resetCsc (flash : Memory) : Csc := ⟨factoryImage, 0#16, false, flash, none⟩

/-- The Time Base after a reset (R20). -/
def resetTb : TimeBase := ⟨0#32, false, 0, 0, .absent, 0, none, false, []⟩

/-- No boundary is owed to a block after a reset. -/
def resetOwed : Owed := ⟨[], [], []⟩

/-- A window at step 1 of start-up (R190), with no sticky flag and no cursor (R156, R196). -/
def resetWindow : Window := ⟨0#7, 0#7, .ready, 0#32, none, none, [], [], none⟩

/-- The Control Port Interface after a reset (R197, R198). The end status is overwritten by the load (R17). -/
def resetCpi : Cpi := ⟨Vector.replicate 4 resetWindow, .a, none, .starting, .running, .selfCheck⟩

/-- The booking table after a reset (R33, R59, R68). -/
def resetBkc : Bkc := ⟨Vector.replicate 256 ⟨0#8, none⟩, [], []⟩

/-- The PSU after a reset (R100): no selector, no holder, every trunk NORMAL and every lane failed in its view. -/
def resetPsu : Psu :=
  ⟨Vector.replicate 256 none, Vector.replicate 128 ⟨none, []⟩, Vector.replicate 128 true, Vector.replicate 16 false⟩

/-- A feed node after a reset (R80). -/
def resetNode : NodeEntry := ⟨.draining, none, none, .unknown, false, false, none⟩

/-- A handoff port after a reset (R82). -/
def resetPort : PortEntry := ⟨none, false, .unknown, false, none⟩

/-- The FCU after a reset (R80, R82, R87, R89). -/
def resetFcu : Fcu := ⟨Vector.replicate 48 resetNode, Vector.replicate 32 resetPort, none, 0#8, []⟩

/-- A line record after a reset (R124): the initial LOS. -/
def resetLine : Line where
  alarmSeen   := false
  los         := true
  frameLoss   := 0#8
  upstream    := 0#8
  raw         := none
  calibrated  := none
  saturated   := false
  lowWarn     := ⟨false, 0⟩
  lowAlarm    := ⟨false, 0⟩
  highAlarm   := ⟨false, 0⟩
  flapCounter := 0
  cleanTimer  := none
  flapLimit   := false
  awaited     := none
  reportGap   := false
  lateCount   := 0
  lastClosed  := none

/-- The Line Monitor after a reset (R124, R125). -/
def resetLmn : Lmn := ⟨false, false, Vector.replicate 16 resetLine, Vector.replicate 32 ⟨false, false, false⟩⟩

/-- A trunk's fault record after a reset (R145): the initial LOS present and not latched, in group 7 alone. -/
def resetTrunkRecord : FaultRecord := ⟨1#22, 0#22, 0#22, 0x80#8⟩

/-- A port's or the device's fault record after a reset (R145). -/
def resetRecord : FaultRecord := ⟨0#22, 0#22, 0#22, 0x80#8⟩

/-- The Fault Record Array after a reset (R145, R150). -/
def resetFra : Fra :=
  ⟨(Vector.replicate 16 resetTrunkRecord ++ Vector.replicate 33 resetRecord : Vector FaultRecord (16 + 33)),
   Vector.replicate 16 ⟨0#8, 0#8, .normal⟩⟩

/-- The Service Meter after a reset (R160). -/
def resetSvm : Svm := ⟨Vector.replicate 256 none⟩

/-- The Billing Queue after a reset (R183). -/
def resetBq : Bq := ⟨[], 1#32⟩

/-- The device after a device reset (R197), at step 2 of start-up, with the flash holding what is given. -/
def resetDevice (flash : Memory) : Device :=
  ⟨resetTb, resetOwed, resetCsc flash, resetCpi, resetBkc, resetPsu, resetFcu, resetLmn, resetFra, resetSvm, resetBq⟩

/-- The state right after reset: an erased flash (a new GH-48, example at the end of 01; DESIGN CHOICE, log entry 2) and no
command waiting. -/
def State.reset : State := ⟨resetDevice [], []⟩

end Sys2Proof.Machine
end

