-- ==== Sys2Proof/Machine/Ops.lean ====
section
/-! DEFINITION. The named operations over the addressed buffers and over the parts of the device: one update per entry of
each table, the oscillator clock, the sticky notice flags, and the look-up of a booking by its handle. -/

namespace Sys2Proof.Machine

/-! ### Addressed buffers -/

/-- The byte at an address; an unlisted address reads as `blank`. -/
def Memory.read (blank : Byte) : Memory → Nat → Byte
  | [], _ => blank
  | (a, v) :: rest, x => if a = x then v else Memory.read blank rest x

/-- Writing one byte keeps the canonical form: writing `blank` removes the entry. -/
def Memory.write (blank : Byte) : Memory → Nat → Byte → Memory
  | [], x, v => if v = blank then [] else [(x, v)]
  | (a, w) :: rest, x, v =>
    if x < a then (if v = blank then (a, w) :: rest else (x, v) :: (a, w) :: rest)
    else if x = a then (if v = blank then rest else (x, v) :: rest)
    else (a, w) :: Memory.write blank rest x v

/-- Every listed address is at or after `low`, addresses rise strictly, and no entry equals `blank`. -/
def Memory.wfFrom (blank : Byte) : Nat → Memory → Bool
  | _, [] => true
  | low, (a, v) :: rest => decide (low ≤ a) && decide (v ≠ blank) && Memory.wfFrom blank (a + 1) rest

/-- The canonical form. -/
def Memory.wf (blank : Byte) (m : Memory) : Bool := Memory.wfFrom blank 0 m

/-- The buffer that holds `bytes` from address `base` on and `blank` elsewhere. -/
def Memory.ofBytes (blank : Byte) : Nat → List Byte → Memory
  | _, [] => []
  | base, b :: rest =>
    if b = blank then Memory.ofBytes blank (base + 1) rest else (base, b) :: Memory.ofBytes blank (base + 1) rest

/-- The `n` bytes from address `base` on. -/
def Memory.slice (blank : Byte) (m : Memory) (base n : Nat) : List Byte :=
  (List.range n).map fun i => Memory.read blank m (base + i)

/-- The big-endian number in the `n` bytes at `base` (R201). -/
def Memory.number (blank : Byte) (m : Memory) (base : Nat) : Nat → Nat
  | 0 => 0
  | n + 1 => Memory.number blank m base n * 256 + (Memory.read blank m (base + n)).toNat

/-- A 32-bit word stored big-endian: byte 0 is the most significant (R201). -/
def Memory.writeWord (blank : Byte) (m : Memory) (base : Nat) (v : Word) : Memory :=
  let m := Memory.write blank m base (v.extractLsb' 24 8)
  let m := Memory.write blank m (base + 1) (v.extractLsb' 16 8)
  let m := Memory.write blank m (base + 2) (v.extractLsb' 8 8)
  Memory.write blank m (base + 3) (v.extractLsb' 0 8)

/-! ### Entries of the tables -/

/-- Replaces the entry `i` of a table by `f` of it. -/
def upd {α : Type} {n : Nat} (v : Vector α n) (i : Fin n) (f : α → α) : Vector α n := v.set i.val (f (v.get i)) i.isLt

/-- The index of a control port in the tables of windows and roles. -/
def portIndex : PortId → Fin 4
  | .a => 0
  | .b => 1
  | .c => 2
  | .d => 3

/-- The port after a port in the rotation A, B, C, D, A (R194). -/
def nextPort : PortId → PortId
  | .a => .b
  | .b => .c
  | .c => .d
  | .d => .a

def window (d : Device) (p : PortId) : Window := d.cpi.windows.get (portIndex p)

def updWindow (p : PortId) (f : Window → Window) (d : Device) : Device :=
  { d with cpi := { d.cpi with windows := upd d.cpi.windows (portIndex p) f } }

def updSlot (i : SlotId) (f : Slot → Slot) (d : Device) : Device :=
  { d with bkc := { d.bkc with slots := upd d.bkc.slots i f } }

/-- The booking in a slot; none when the slot is FREE. -/
def bookingAt (d : Device) (i : SlotId) : Option Booking := (d.bkc.slots.get i).booking

/-- The handle of the booking in a slot (R34). -/
def handleAt (d : Device) (i : SlotId) : Handle := ⟨i, (d.bkc.slots.get i).generation⟩

/-- Changes the booking in a slot; a FREE slot is left as it is. -/
def updBooking (i : SlotId) (f : Booking → Booking) (d : Device) : Device :=
  updSlot i (fun s => { s with booking := s.booking.map f }) d

def updNode (n : FeedNode) (f : NodeEntry → NodeEntry) (d : Device) : Device :=
  { d with fcu := { d.fcu with nodes := upd d.fcu.nodes n f } }

def updPort (p : HandoffPort) (f : PortEntry → PortEntry) (d : Device) : Device :=
  { d with fcu := { d.fcu with ports := upd d.fcu.ports p f } }

def updLine (t : Trunk) (f : Line → Line) (d : Device) : Device :=
  { d with lmn := { d.lmn with lines := upd d.lmn.lines t f } }

def updTransmitter (p : HandoffPort) (f : Transmitter → Transmitter) (d : Device) : Device :=
  { d with lmn := { d.lmn with transmitters := upd d.lmn.transmitters p f } }

def updRecord (r : Fin 49) (f : FaultRecord → FaultRecord) (d : Device) : Device :=
  { d with fra := { d.fra with records := upd d.fra.records r f } }

def updTrunkFault (t : Trunk) (f : TrunkFault → TrunkFault) (d : Device) : Device :=
  { d with fra := { d.fra with trunks := upd d.fra.trunks t f } }

def setSelector (i : SlotId) (x : Option Selector) (d : Device) : Device :=
  { d with psu := { d.psu with selectors := upd d.psu.selectors i fun _ => x } }

def updLane (l : Lane) (f : ProtectionLane → ProtectionLane) (d : Device) : Device :=
  { d with psu := { d.psu with lanes := upd d.psu.lanes l f } }

def setMeter (i : SlotId) (x : Option MeterRecord) (d : Device) : Device :=
  { d with svm := { records := upd d.svm.records i fun _ => x } }

def updMeter (i : SlotId) (f : MeterRecord → MeterRecord) (d : Device) : Device :=
  { d with svm := { records := upd d.svm.records i fun m => m.map f } }

/-- Changes every metering record. -/
def setMeters (d : Device) (f : SlotId → MeterRecord → MeterRecord) : Device :=
  { d with svm := ⟨Vector.ofFn fun i => (d.svm.records.get i).map (f i)⟩ }

def setImage (img : Image) (d : Device) : Device := { d with csc := { d.csc with image := img } }

/-- A command that writes the RAM image and ends DONE sets the unsaved indication (R10). -/
def setUnsaved (d : Device) : Device := { d with csc := { d.csc with unsaved := true } }

/-! ### Lanes and trunks -/

/-- The trunk of a lane (R1). -/
def trunkOf (l : Lane) : Trunk := ⟨l.val / 8, by omega⟩

/-- The lane index of a lane (R1). -/
def laneIndex (l : Lane) : Fin 8 := ⟨l.val % 8, by omega⟩

/-- The lane of a trunk and a lane index (R1). -/
def laneOf (t : Trunk) (i : Fin 8) : Lane := ⟨t.val * 8 + i.val, by omega⟩

/-- Membership of a lane index in a set of lanes. -/
def hasLane (s : LaneSet) (i : Fin 8) : Bool := s.getLsbD i.val

/-! ### Time -/

/-- "Now": network time as the TB holds it (R39). -/
def now (d : Device) : Nat := d.tb.time.toNat

/-- The oscillator reaches the instant `at`: the clock and the elapsed time E rise together; an instant already past moves
nothing (R20; log entry 5). -/
def advanceTo (at_ : Nat) (d : Device) : Device :=
  { d with tb := { d.tb with clock := d.tb.clock + (at_ - d.tb.clock), elapsed := d.tb.elapsed + (at_ - d.tb.clock) } }

/-- The millisecond phase: E, held at 999 once E reaches 999 (R20, R21). -/
def phase (d : Device) : Nat := min d.tb.elapsed 999

/-- The whole seconds left before an instant, rounded up: 0 exactly from that instant on (R201; log entry 51). -/
def secondsLeft (d : Device) (e : Nat) : Nat := (e - d.tb.clock + 999) / 1000

/-! ### Sticky notice flags (R156) -/

def bookingNotice : NoticeSet := 0x01#7
def protectionNotice : NoticeSet := 0x02#7
def billingNotice : NoticeSet := 0x04#7
def commandNotice : NoticeSet := 0x08#7

/-- Sets a sticky flag of every control port. -/
def notifyAll (c : NoticeSet) (d : Device) : Device :=
  { d with cpi := { d.cpi with windows := d.cpi.windows.map fun w => { w with sticky := w.sticky ||| c } } }

/-! ### Bookings -/

/-- A booking holds its reservation while PENDING, ARMED, LIVE or OVERRUN (R35). -/
def holds (b : Booking) : Bool :=
  match b.state with
  | .pending | .armed | .live | .overrun => true
  | .settling | .unbilled => false

/-- A booking that uses its selector, its claims and its node: ARMED, LIVE or OVERRUN (R100). -/
def running (b : Booking) : Bool :=
  match b.state with
  | .armed | .live | .overrun => true
  | .pending | .settling | .unbilled => false

/-- The first instant of the reserved interval (R35). -/
def intervalFirst (b : Booking) : Nat := b.start - b.lead

/-- The end of the reserved interval, exclusive (R35). -/
def intervalEnd (b : Booking) : Nat := b.plannedEnd + b.allowance + b.guard

/-- Two intervals share an instant (R35). -/
def overlaps (a1 b1 a2 b2 : Nat) : Bool := decide (a1 < b2) && decide (a2 < b1)

/-- An interval contains an instant (R35). -/
def containsInstant (a b x : Nat) : Bool := decide (a ≤ x) && decide (x < b)

/-- The slots that hold a booking, with it, in slot order. -/
def bookings (d : Device) : List (SlotId × Booking) :=
  (List.finRange 256).filterMap fun i => (bookingAt d i).map fun b => (i, b)

/-- The booking a current handle names (R34); a stale handle names none. -/
def bookingOf (d : Device) (h : Handle) : Option Booking :=
  if (d.bkc.slots.get h.slot).generation = h.generation then bookingAt d h.slot else none

/-- Some booking is in a state that satisfies `p`. -/
def someBooking (p : Booking → Bool) (d : Device) : Bool := (bookings d).any fun x => p x.2

end Sys2Proof.Machine
end

