-- ==== Sys2Proof/Machine/Flags.lean ====
section
/-! DEFINITION. The flags of the part: the fault sources and their bits, latching, the level conditions of the device
record, lane signal-fail as the FRA computes it (R149), the level classes of the notices (R156), the notice words (R157). -/

namespace Sys2Proof.Machine

/-! ### Sources (R6, R146, R202) -/

def srcLos : SourceSet := 1#22 <<< 0
def srcLowWarn : SourceSet := 1#22 <<< 1
def srcLowAlarm : SourceSet := 1#22 <<< 2
def srcHighAlarm : SourceSet := 1#22 <<< 3
def srcFrameLoss : SourceSet := 1#22 <<< 4
def srcUpstream : SourceSet := 1#22 <<< 5
def srcReportGap : SourceSet := 1#22 <<< 6
def srcFlapLimit : SourceSet := 1#22 <<< 7
def srcQuarantined : SourceSet := 1#22 <<< 8
def srcTxFault : SourceSet := 1#22 <<< 9
def srcFarEndDown : SourceSet := 1#22 <<< 10
def srcTestPreempted : SourceSet := 1#22 <<< 11
def srcJoinFailed : SourceSet := 1#22 <<< 12
def srcFabricTimeout : SourceSet := 1#22 <<< 13
def srcFabricNak : SourceSet := 1#22 <<< 14
def srcFabricProtocol : SourceSet := 1#22 <<< 15
def srcFabricResetSeen : SourceSet := 1#22 <<< 16
def srcReferenceLost : SourceSet := 1#22 <<< 17
def srcStoreFault : SourceSet := 1#22 <<< 18
def srcLslFrameError : SourceSet := 1#22 <<< 19
def srcBillQueueHigh : SourceSet := 1#22 <<< 20
def srcSharedDenied : SourceSet := 1#22 <<< 21

/-- The sources of the trunk, port and device classes (R6). -/
def trunkSources : SourceSet := 0x0001FF#22
def portSources : SourceSet := 0x001E00#22
def deviceSources : SourceSet := 0x3FE000#22

/-- A source is in a set. -/
def hasSource (s src : SourceSet) : Bool := s &&& src != 0#22

/-! ### The records (R145) -/

def trunkRecord (t : Trunk) : Fin 49 := ⟨t.val, by omega⟩
def portRecord (p : HandoffPort) : Fin 49 := ⟨16 + p.val, by omega⟩
def deviceRecord : Fin 49 := 48

/-- The sources of a record's class. -/
def classSources (r : Fin 49) : SourceSet :=
  if r.val < 16 then trunkSources else if r.val < 48 then portSources else deviceSources

def record (d : Device) (r : Fin 49) : FaultRecord := d.fra.records.get r

/-- An event source has an onset: it is latched and never present (R146). -/
def latch (r : Fin 49) (src : SourceSet) (d : Device) : Device :=
  updRecord r (fun x => { x with latched := x.latched ||| src }) d

/-- The present conditions of a record's class become `p`; every source newly present has an onset and is latched
(R146, R152 steps 1 and 2). -/
def handPresent (p : SourceSet) (x : FaultRecord) : FaultRecord :=
  { x with present := p, latched := x.latched ||| (p &&& ~~~x.present) }

/-- A level condition of the device record becomes present or absent (R146). -/
def setDeviceLevel (src : SourceSet) (present : Bool) (d : Device) : Device :=
  updRecord deviceRecord (fun x => handPresent (if present then x.present ||| src else x.present &&& ~~~src) x) d

/-! ### Actions and lane signal-fail (R148, R149) -/

/-- The sources that carry an action, as a set. -/
def carrying (a : Action) (img : Image) : SourceSet :=
  (List.finRange 22).foldl (fun s i => if img.actions.get i = a then s ||| (1#22 <<< i.val) else s) 0#22

/-- Lane signal-fail (R149), for a given set of sources that carry PROTECT. -/
def laneSignalFail (protect : SourceSet) (d : Device) (l : Lane) : Bool :=
  let x := record d (trunkRecord (trunkOf l))
  let f := d.fra.trunks.get (trunkOf l)
  decide (f.service = .quarantined)
    || hasSource (x.present &&& protect &&& ~~~x.mask) (srcLos ||| srcLowAlarm ||| srcHighAlarm)
    || (hasLane f.frameLoss (laneIndex l) && hasSource (protect &&& ~~~x.mask) srcFrameLoss)

/-- Lane signal-fail (R149). -/
def signalFail (d : Device) (l : Lane) : Bool := laneSignalFail (carrying .protect d.csc.image) d l

/-! ### Notices (R156, R157) -/

/-- Some record with a number in the range has a latched flag for a source that is not masked on it. -/
def levelIn (d : Device) (low high : Nat) : Bool :=
  (List.finRange 49).any fun r =>
    decide (low ≤ r.val) && decide (r.val < high) && decide ((record d r).latched &&& ~~~(record d r).mask ≠ 0#22)

/-- The level classes present, in their bit positions (R156, R203). -/
def levelClasses (d : Device) : NoticeSet :=
  (if levelIn d 0 16 then 0x10#7 else 0#7) ||| (if levelIn d 16 48 then 0x20#7 else 0#7)
    ||| (if levelIn d 48 49 then 0x40#7 else 0#7)

/-- A port's notice word (R157). -/
def noticeWord (d : Device) (p : PortId) : NoticeSet :=
  ((window d p).sticky ||| levelClasses d) &&& (window d p).enable

/-- A port's notice line: asserted while the notice word is not empty (R157). -/
def noticeLine (d : Device) (p : PortId) : Bool := noticeWord d p != 0#7

end Sys2Proof.Machine
end

