-- ==== Sys2Proof/Machine/Operands.lean ====
section
/-! DEFINITION. The encodings of 12_formats.md: fields packed and read under R201, the enumerations of R202, and the
command codes, result codes and table identifiers of R203. -/

namespace Sys2Proof.Machine

/-! ### Packing (R201) -/

/-- The big-endian bytes of a number in a field of `n` bytes. -/
def bytesBE : Nat → Nat → List Byte
  | 0, _ => []
  | n + 1, v => bytesBE n (v / 256) ++ [BitVec.ofNat 8 v]

/-- A field to be packed: its width in bytes and its value. -/
structure Field where
  width : Nat
  value : Nat
deriving DecidableEq, Repr

def u1 (v : Nat) : Field := ⟨1, v⟩
def u2 (v : Nat) : Field := ⟨2, v⟩
def u4 (v : Nat) : Field := ⟨4, v⟩

/-- A signed field of two bytes, two's complement. -/
def s2 (v : Int) : Field := ⟨2, (BitVec.ofInt 16 v).toNat⟩

/-- A field that is set or clear, present or absent (log entry 12). -/
def flag (b : Bool) : Field := u1 (if b then 1 else 0)

/-- The reserved bytes before a field of width `w` at offset `off`: fields begin at multiples of their width. -/
def padding (off w : Nat) : Nat := (w - off % w) % w

/-- The bytes of a list of fields, the first of which may begin at offset `off`. -/
def pack : Nat → List Field → List Byte
  | _, [] => []
  | off, x :: rest =>
    List.replicate (padding off x.width) 0#8 ++ bytesBE x.width x.value
      ++ pack (off + padding off x.width + x.width) rest

/-- An optional field: a presence byte, and the field, zero when absent. -/
def optField (w : Nat) (v : Option Nat) : List Field :=
  match v with
  | none => [u1 0, ⟨w, 0⟩]
  | some v => [u1 1, ⟨w, v⟩]

/-- An optional group of fields after one presence byte. -/
def optGroup (widths : List Nat) (v : Option (List Field)) : List Field :=
  match v with
  | none => u1 0 :: widths.map fun w => ⟨w, 0⟩
  | some fs => u1 1 :: fs

/-- A list: its count byte and its members. -/
def listField (members : List Field) (count : Nat) : List Field := u1 count :: members

/-- The offsets at which fields of the given widths begin, the first at or after `off`. -/
def offsets : Nat → List Nat → List Nat
  | _, [] => []
  | off, w :: ws => (off + padding off w) :: offsets (off + padding off w + w) ws

/-- The fields of the given widths read from a buffer, each with its offset. -/
def readFields (blank : Byte) (m : Memory) : Nat → List Nat → List (Nat × Nat)
  | _, [] => []
  | off, w :: ws =>
    (off + padding off w, Memory.number blank m (off + padding off w) w)
      :: readFields blank m (off + padding off w + w) ws

/-- Brings bytes to a given length by reserved bytes that read zero, or by cutting. -/
def fit (n : Nat) (bs : List Byte) : List Byte := (bs ++ List.replicate (n - bs.length) 0#8).take n

/-! ### Parameters -/

/-- A parameter of one, two or four bytes at an offset of the parameter area (R201). -/
def param (m : Memory) (off width : Nat) : Nat := Memory.number windowBlank m off width

/-- A handle parameter (R201): slot, then generation. -/
def handleParam (m : Memory) (off : Nat) : Handle :=
  ⟨Fin.ofNat 256 (param m off 1), BitVec.ofNat 8 (param m (off + 1) 1)⟩

/-- A number as an index below `n`; none when it is too great. -/
def asFin (n v : Nat) : Option (Fin n) := if h : v < n then some ⟨v, h⟩ else none

/-- A signed 16-bit field (R201). -/
def signed16 (v : Nat) : Int := (BitVec.ofNat 16 v).toInt

/-- The next multiple of `w` at or after `off`. -/
def alignUp (off w : Nat) : Nat := off + padding off w

/-! ### Codes of the enumerations (R202) -/

def handleCode (h : Handle) : Nat := h.slot.val * 256 + h.generation.toNat

/-- The code of a control port in a booking's entry; no rule gives one (log entry 42). -/
def portCode : PortId → Nat
  | .a => 0
  | .b => 1
  | .c => 2
  | .d => 3

/-- The state code of a slot's booking; FREE is 0. -/
def bookingStateCode : Option BookingState → Nat
  | none => 0
  | some .pending => 1
  | some .armed => 2
  | some .live => 3
  | some .overrun => 4
  | some .settling => 5
  | some .unbilled => 6

def selectorStateCode : SelectorState → Nat
  | .unprotected => 0
  | .onWorking => 1
  | .holdOff => 2
  | .waiting => 3
  | .onProtection => 4
  | .waitRestore => 5
  | .forcedProtection => 6
  | .lockedWorking => 7

def timerCode : Option SelectorTimer → Nat
  | none => 0
  | some ⟨.holdOff, _⟩ => 1
  | some ⟨.waitToRestore, _⟩ => 2
  | some ⟨.returnTimer, _⟩ => 3

def nodeStateCode : NodeState → Nat
  | .free => 0
  | .owned => 1
  | .draining => 2

def sourceCode : Source → Nat
  | .lane l => l.val
  | .none => 0xFE
  | .unknown => 0xFF

def laneOrNoneCode : Option Lane → Nat
  | some l => l.val
  | none => 0xFE

def attachmentCode : Attachment → Nat
  | .park => 0
  | .test => 256
  | .node n => 512 + n.val
  | .unknown => 768

/-- A lane specification (R201); the lane byte of NONE and AUTO is 0 (log entry 43). -/
def laneSpecCode : LaneSpec → Nat
  | .none => 0
  | .auto => 256
  | .explicit l => 512 + l.val

def availabilityCode : Availability → Nat
  | .available => 0
  | .unavailable => 1

def gradeCode : Grade → Nat
  | .clean => 0
  | .errored => 1
  | .source => 2
  | .severe => 3

def actionCode : Action → Nat
  | .notify => 0
  | .protect => 1
  | .quarantine => 2

def actionOf : Nat → Option Action
  | 0 => some .notify
  | 1 => some .protect
  | 2 => some .quarantine
  | _ => none

def serviceCode : Service → Nat
  | .normal => 0
  | .quarantined => 1

def refStateCode : RefState → Nat
  | .absent => 0
  | .locked => 1
  | .holdover => 2
  | .relocking => 3

def statusCode : DeviceStatus → Nat
  | .starting => 1
  | .running => 2
  | .halted => 3
  | .defaults => 4

def tableCode : TableId → Nat
  | .bookings => 1
  | .trunks => 2
  | .ports => 3
  | .nodes => 4
  | .faults => 5
  | .tariffs => 6
  | .waiting => 7
  | .unbilled => 8

def tableOf : Nat → Option TableId
  | 1 => some .bookings
  | 2 => some .trunks
  | 3 => some .ports
  | 4 => some .nodes
  | 5 => some .faults
  | 6 => some .tariffs
  | 7 => some .waiting
  | 8 => some .unbilled
  | _ => none

/-- The result codes (R203). -/
def resultCode : Result → Nat
  | .done => 0
  | .notPermitted => 1
  | .badCommand => 2
  | .badParameter => 3
  | .notReady => 4
  | .noSuchBooking => 5
  | .wrongState => 6
  | .tooSoon => 7
  | .tooLate => 8
  | .timeNotSet => 9
  | .tableFull => 10
  | .laneConflict => 11
  | .noFreeLane => 12
  | .protectionConflict => 13
  | .portConflict => 14
  | .nodeLimit => 15
  | .trunkQuarantined => 16
  | .inUse => 17
  | .queueEmpty => 18
  | .notInQueue => 19
  | .storeFailed => 20

def roleBits (r : RoleSet) : Nat :=
  (if r.schedule then 1 else 0) + (if r.operate then 2 else 0) + (if r.bill then 4 else 0) + (if r.maintain then 8 else 0)

/-- A role set from its byte (R3, R201); bits 4-7 name no role and are ignored (log entry 39). -/
def roleSetOf (v : Nat) : RoleSet := ⟨v.testBit 0, v.testBit 1, v.testBit 2, v.testBit 3⟩

/-! ### The command words and codes (R203) -/

/-- What a command word reads as a 32-bit word. -/
def commandWordCode : CommandWord → Word
  | .ready => 0x00000000#32
  | .posted c => c
  | .taken => 0xFFFF0003#32
  | .done => 0xFFFF0001#32
  | .failed => 0xFFFF0002#32

/-- The commands of the command codes. PROFILE_WRITE is one code with two forms (R4). -/
inductive Command where
  | bookSubmit | bookAmend | bookEnd | bookCancel | bookExtend | bookQuery | timeSet
  | configWrite | configRead | configSave | deviceRestart | profileWrite | calWrite | tariffWrite
  | portTest | portUntest | fabricResync | protForce | protLock | protClear
  | actionWrite | trunkQuarantine | trunkRelease | faultClear | maskSet | maskClear | maskWrite | groupWrite
  | meterRead | billFetch | billRelease
  | tableRead | tableNext | noticeClear
deriving DecidableEq, Repr

/-- The command a code names, if any (R203). -/
def commandOf (code : Word) : Option Command :=
  match code.toNat with
  | 0x0101 => some .bookSubmit
  | 0x0102 => some .bookAmend
  | 0x0103 => some .bookEnd
  | 0x0104 => some .bookCancel
  | 0x0105 => some .bookExtend
  | 0x0106 => some .bookQuery
  | 0x0107 => some .timeSet
  | 0x0201 => some .configWrite
  | 0x0202 => some .configRead
  | 0x0203 => some .configSave
  | 0x0204 => some .deviceRestart
  | 0x0205 => some .profileWrite
  | 0x0206 => some .calWrite
  | 0x0207 => some .tariffWrite
  | 0x0301 => some .portTest
  | 0x0302 => some .portUntest
  | 0x0303 => some .fabricResync
  | 0x0304 => some .protForce
  | 0x0305 => some .protLock
  | 0x0306 => some .protClear
  | 0x0401 => some .actionWrite
  | 0x0402 => some .trunkQuarantine
  | 0x0403 => some .trunkRelease
  | 0x0404 => some .faultClear
  | 0x0405 => some .maskSet
  | 0x0406 => some .maskClear
  | 0x0407 => some .maskWrite
  | 0x0408 => some .groupWrite
  | 0x0501 => some .meterRead
  | 0x0502 => some .billFetch
  | 0x0503 => some .billRelease
  | 0x0601 => some .tableRead
  | 0x0602 => some .tableNext
  | 0x0603 => some .noticeClear
  | _ => none

/-- The role a command needs (R193's table): a port with any role of the set passes. -/
def permitted (r : RoleSet) : Command → Bool
  | .bookSubmit | .bookAmend | .bookEnd | .bookCancel | .bookExtend | .timeSet => r.schedule
  | .profileWrite | .calWrite | .actionWrite | .portTest | .portUntest | .fabricResync | .protForce | .protLock
  | .protClear | .trunkQuarantine | .trunkRelease | .faultClear | .maskSet | .maskClear | .maskWrite | .groupWrite =>
    r.operate
  | .tariffWrite | .billFetch | .billRelease => r.bill
  | .configWrite | .configRead | .configSave | .deviceRestart => r.maintain
  | .meterRead => r.schedule || r.bill
  | .tableRead | .tableNext | .bookQuery | .noticeClear => true

end Sys2Proof.Machine
end

