-- ==== Sys2Proof/Machine/Framing.lean ====
section
/-! DEFINITION. The CRC-16 of R10, and the units of the Line Status Link and the Fabric Order Link (R204): what the part
accepts, and what it sends. -/

namespace Sys2Proof.Machine

/-- One bit of the CRC-16: generator x^16 + x^12 + x^5 + 1, most significant bit first (R10). -/
def crcBit (c : BitVec 16) : BitVec 16 := if c.getLsbD 15 then (c <<< 1) ^^^ 0x1021#16 else c <<< 1

def crcBits : Nat → BitVec 16 → BitVec 16
  | 0, c => c
  | n + 1, c => crcBits n (crcBit c)

/-- One byte of the CRC-16. -/
def crcByte (c : BitVec 16) (b : Byte) : BitVec 16 := crcBits 8 (c ^^^ (b.setWidth 16 <<< 8))

/-- The CRC-16 from an initial value of 0xFFFF, not reflected, with no final inversion (R10). -/
def crc16 (bs : List Byte) : BitVec 16 := bs.foldl crcByte 0xFFFF#16

/-- A frame with its two CRC bytes appended, most significant first (R204). -/
def withCrc (bs : List Byte) : List Byte := bs ++ bytesBE 2 (crc16 bs).toNat

/-! ### The inbound Line Status Link -/

/-- The inbound frames that pass the checks of R126. -/
inductive LslFrame where
  | alarm (t : Trunk) (los : Bool) (frameLoss upstream : LaneSet)
  | second (t : Trunk) (label : Byte) (lanes : Vector LaneReport 8)
  | power (t : Trunk) (raw : Int) (valid : Bool)
  | portstat (p : HandoffPort) (txFault farEndLink : Bool)
deriving DecidableEq, Repr

/-- One lane of a SECOND frame: errored blocks (2 bytes), flags (R204). -/
def laneReport (hi lo fl : Byte) : LaneReport := ⟨hi ++ lo, fl.getLsbD 0, fl.getLsbD 1⟩

/-- The lane reports packed in the body of a SECOND frame. -/
def laneReports : List Byte → List LaneReport
  | hi :: lo :: fl :: rest => laneReport hi lo fl :: laneReports rest
  | _ => []

/-- The bytes before the CRC and whether the last two bytes are their CRC. -/
def crcMatches (unit : List Byte) : Bool :=
  decide (2 ≤ unit.length) && decide (withCrc (unit.take (unit.length - 2)) = unit)

/-- The frame a received unit is, when it passes the checks of R126: CRC, length, kind, trunk or port. -/
def lslFrame (unit : List Byte) : Option LslFrame :=
  if crcMatches unit then
    match unit.take (unit.length - 2) with
    | kind :: body =>
      if kind = 0x01#8 then
        match body with
        | [t, los, fl, up] => (asFin 16 t.toNat).map fun t => .alarm t (los.getLsbD 0) fl up
        | _ => none
      else if kind = 0x02#8 then
        match body with
        | t :: label :: rest =>
          if rest.length = 24 then
            (asFin 16 t.toNat).map fun t =>
              .second t label (Vector.ofFn fun i => (laneReports rest).getD i.val ⟨0#16, false, false⟩)
          else none
        | _ => none
      else if kind = 0x03#8 then
        match body with
        | [t, hi, lo, valid] => (asFin 16 t.toNat).map fun t => .power t (hi ++ lo).toInt (valid.getLsbD 0)
        | _ => none
      else if kind = 0x04#8 then
        match body with
        | [p, status] => (asFin 32 p.toNat).map fun p => .portstat p (status.getLsbD 0) (status.getLsbD 1)
        | _ => none
      else none
    | [] => none
  else none

/-- The unit of a frame, as a front end sends it (R204). -/
def lslUnit : LslFrame → List Byte
  | .alarm t los fl up => withCrc [0x01#8, BitVec.ofNat 8 t.val, if los then 1#8 else 0#8, fl, up]
  | .second t label lanes =>
    withCrc (0x02#8 :: BitVec.ofNat 8 t.val :: label :: lanes.toList.flatMap fun r =>
      [r.errored.extractLsb' 8 8, r.errored.extractLsb' 0 8,
       (if r.defect then 1#8 else 0#8) ||| (if r.upstream then 2#8 else 0#8)])
  | .power t raw valid =>
    withCrc [0x03#8, BitVec.ofNat 8 t.val, (BitVec.ofInt 16 raw).extractLsb' 8 8, (BitVec.ofInt 16 raw).extractLsb' 0 8,
      if valid then 1#8 else 0#8]
  | .portstat p tx far =>
    withCrc [0x04#8, BitVec.ofNat 8 p.val, (if tx then 1#8 else 0#8) ||| (if far then 2#8 else 0#8)]

/-! ### The outbound Line Status Link -/

/-- The MARK frame of the boundary at T (R28). -/
def markFrame (t : Word) : List Byte := withCrc [0x05#8, t.extractLsb' 0 8]

/-! ### The Fabric Order Link -/

/-- The unit of an order (R204): kind, tag, then two parameter bytes. -/
def orderUnit (k : OrderKind) (tag : Byte) : List Byte :=
  match k with
  | .clearAll => [0x10#8, tag, 0#8, 0#8]
  | .nodeSelect n l => [0x11#8, tag, BitVec.ofNat 8 n.val, BitVec.ofNat 8 l.val]
  | .nodeRelease n => [0x12#8, tag, BitVec.ofNat 8 n.val, 0#8]
  | .portJoin p n => [0x13#8, tag, BitVec.ofNat 8 p.val, BitVec.ofNat 8 n.val]
  | .portPark p => [0x14#8, tag, BitVec.ofNat 8 p.val, 0#8]
  | .portTest p => [0x15#8, tag, BitVec.ofNat 8 p.val, 0#8]

/-- The fabric's replies (R79, R204). -/
inductive FolReply where
  | ack (tag : Byte)
  | nak (tag reason : Byte)
  | resetNotice
deriving DecidableEq, Repr

/-- The reply a received unit is, when Formats admits it: four bytes of a known kind (R93, R204). -/
def folReply (unit : List Byte) : Option FolReply :=
  match unit with
  | [kind, tag, p, _] =>
    if kind = 0x20#8 then some (.ack tag)
    else if kind = 0x21#8 then some (.nak tag p)
    else if kind = 0x22#8 then some .resetNotice
    else none
  | _ => none

end Sys2Proof.Machine
end

