-- ==== Sys2Proof/Machine/Engine.lean ====
section
/-! DEFINITION. The command engine (R193, R194): which port it serves, the checks before the owning block takes a command,
and the completion of a command. Every command of a control port is `serve` or `engage` of its own owner. -/

namespace Sys2Proof.Machine

/-- The outcome of a command: result code, field index (none: 0xFFFF), response (R193). -/
structure Reply where
  result   : Result
  field    : Option Nat
  response : List Byte
deriving DecidableEq, Repr

/-- A command that ends DONE with its response fields packed under R201; the field index is none (R193). -/
def doneReply (fields : List Field) : Reply := ⟨.done, none, pack 0 fields⟩

/-- A command that ends FAILED with a response of zeros. -/
def failReply (r : Result) (field : Option Nat) : Reply := ⟨r, field, []⟩

/-- The posted code of a port's command word, if it holds one (R192). -/
def postedCode (d : Device) (p : PortId) : Option Word :=
  match (window d p).command with
  | .posted c => some c
  | .ready | .taken | .done | .failed => none

/-- The engine is free and takes commands: from step 5 of start-up on, and in HALTED (R194, R198, R199). -/
def engineFree (d : Device) : Bool :=
  decide (d.cpi.serving = none) && (decide (d.cpi.phase = .operating) || decide (d.cpi.phase = .halted))

/-- The ports in the rotation, from a port on (R194). -/
def rotation (p : PortId) : List PortId := [p, nextPort p, nextPort (nextPort p), nextPort (nextPort (nextPort p))]

/-- The port whose posted command a free engine takes next (R194). -/
def chosenPort (d : Device) : Option PortId :=
  if engineFree d then (rotation d.cpi.pointer).find? fun p => (postedCode d p).isSome else none

/-- The take (R193 step 1): TAKEN, the code in the error block with no result, and the pointer at the next port. -/
def takeCommand (p : PortId) (code : Word) (d : Device) : Device :=
  let d := updWindow p (fun w => { w with command := .taken, code := code, result := none, field := none }) d
  { d with cpi := { d.cpi with pointer := nextPort p } }

/-- The completion of a command (R193): response, error block, command word, COMMAND flag; the engine is free. -/
def complete (p : PortId) (r : Reply) (d : Device) : Device :=
  let d := updWindow p (fun w => { w with
    response := Memory.ofBytes windowBlank 0 (r.response.take Config.responseBytes),
    result := some r.result,
    field := r.field,
    command := if r.result = .done then .done else .failed,
    sticky := w.sticky ||| commandNotice }) d
  { d with cpi := { d.cpi with serving := none } }

/-- The role set of a port, as ROLES holds it now (R3). -/
def rolesOf (d : Device) (p : PortId) : RoleSet := d.csc.image.roles.get (portIndex p)

/-- The engine takes a command of kind `c` (R193): steps 1 to 4, and then `k`, which stands for step 5 and completes the
command. Where the engine is not free, no code is posted, or the chosen port's code names another command, this event does
not happen and nothing changes (log entry 4). DEVICE_RESTART passes in HALTED without the role check (R199). -/
def engage (c : Command) (k : PortId → Device → Device) (d : Device) : Device :=
  match chosenPort d with
  | none => d
  | some p =>
    match postedCode d p with
    | none => d
    | some code =>
      if commandOf code = some c then
        if d.cpi.status = .halted then
          if c = .deviceRestart then k p (takeCommand p code d)
          else complete p (failReply .notReady none) (takeCommand p code d)
        else if permitted (rolesOf d p) c then k p (takeCommand p code d)
        else complete p (failReply .notPermitted none) (takeCommand p code d)
      else d

/-- A command that completes in the event in which its owning block takes it (R193). The owner gives the new device and
the reply; its parameters are read from the port's parameter area. -/
def serve (c : Command) (owner : PortId → Memory → Device → Device × Reply) (d : Device) : Device :=
  engage c (fun p d =>
    let out := owner p (window d p).params d
    complete p out.2 out.1) d

/-- The engine takes a posted code that names no command (R193 step 2). -/
def takeBadCommand (d : Device) : Device :=
  match chosenPort d with
  | none => d
  | some p =>
    match postedCode d p with
    | none => d
    | some code =>
      if commandOf code = none then complete p (failReply .badCommand none) (takeCommand p code d) else d

/-- An event of the device: the next state is the device's new value, the queue as it was. -/
def onDevice (f : Device → Device) (s : State) : Host.Outcome State Fault Refusal := .next { s with dev := f s.dev }

/-- BAD_COMMAND (R193). -/
def execBadCommand (s : State) : Host.Outcome State Fault Refusal := onDevice takeBadCommand s

end Sys2Proof.Machine
end

