-- ==== Sys2Proof/Machine/Fabric.lean ====
section
/-! DEFINITION. Fabric control (05): claims, the reconciler, orders and their completion, draining and the grant of nodes,
and the commands PORT_TEST, PORT_UNTEST and FABRIC_RESYNC. -/

namespace Sys2Proof.Machine

/-! ### Views of the tables -/

def node (d : Device) (n : FeedNode) : NodeEntry := d.fcu.nodes.get n
def port (d : Device) (p : HandoffPort) : PortEntry := d.fcu.ports.get p

/-- A port's desired attachment (R83). -/
def desiredAttachment (e : PortEntry) : Attachment :=
  match e.live with
  | some c => .node c.node
  | none => if e.test then .test else .park

/-- A node's desired source as a source. -/
def desiredSource (e : NodeEntry) : Source :=
  match e.desired with
  | some l => .lane l
  | none => .none

/-- The selected lane of a selector (R101). -/
def selectedLane (s : Selector) : Lane :=
  match s.state with
  | .onProtection | .waitRestore | .forcedProtection => s.protection.getD s.working
  | .unprotected | .onWorking | .holdOff | .waiting | .lockedWorking => s.working

/-! ### Changes of desired values (R81, R83, R94) -/

/-- Sets a node's desired source; a change clears the stuck mark (R81). -/
def setDesired (n : FeedNode) (src : Option Lane) (d : Device) : Device :=
  updNode n (fun e => { e with desired := src, stuck := e.stuck && decide (e.desired = src) }) d

/-- Changes a port's claims; a change of the desired attachment clears the stuck mark (R83). -/
def setClaims (p : HandoffPort) (live : Option LiveClaim) (test : Bool) (d : Device) : Device :=
  updPort p (fun e =>
    let e' := { e with live := live, test := test }
    { e' with stuck := e.stuck && decide (desiredAttachment e' = desiredAttachment e) }) d

/-- Places a LIVE claim on a port (R58, R60, R82). A claim of another booking that still stands there is replaced (log entry
67). -/
def placeLive (c : LiveClaim) (p : HandoffPort) (d : Device) : Device := setClaims p (some c) (port d p).test d

/-- Removes the LIVE claim of one booking from a port; a claim of another booking stays (log entry 9). -/
def dropLive (h : Handle) (p : HandoffPort) (d : Device) : Device :=
  match (port d p).live with
  | some c => if c.handle = h then setClaims p none (port d p).test d else d
  | none => d

/-- Arming removes a TEST claim and latches TEST_PREEMPTED (R86). -/
def preemptTest (p : HandoffPort) (d : Device) : Device :=
  if (port d p).test then latch (portRecord p) srcTestPreempted (setClaims p (port d p).live false d) else d

/-! ### Confirmed values -/

/-- The SVM sets the switch mark of every booking that has not closed and whose metered node satisfies `p` (R161). A booking
that closed at this boundary takes no mark, although its last snapshot may be still to come (log entry 65). -/
def switchMarks (p : FeedNode → Bool) (d : Device) : Device :=
  setMeters d fun i m =>
    if (m.node.map p).getD false && ((bookingAt d i).map fun b => b.closeTime.isNone).getD false
    then { m with switchMark := true } else m

/-- A node's confirmed source takes a value; a change is made known to the SVM (R90). -/
def confirmNode (n : FeedNode) (src : Source) (d : Device) : Device :=
  if (node d n).confirmed = src then d
  else switchMarks (fun m => decide (m = n)) (updNode n (fun e => { e with confirmed := src }) d)

def confirmPort (p : HandoffPort) (a : Attachment) (d : Device) : Device := updPort p (fun e => { e with confirmed := a }) d

/-- Every node and port takes a confirmed value; the nodes that change are made known to the SVM. -/
def confirmAll (src : Source) (a : Attachment) (d : Device) : Device :=
  let marked := switchMarks (fun n => decide ((node d n).confirmed ≠ src)) d
  { marked with fcu := { d.fcu with
      nodes := d.fcu.nodes.map fun e => { e with confirmed := src }
      ports := d.fcu.ports.map fun e => { e with confirmed := a } } }

/-- Every stuck mark and every established mark clears (R96, R97). -/
def clearMarks (d : Device) : Device :=
  { d with fcu := { d.fcu with
      nodes := d.fcu.nodes.map fun e => { e with stuck := false, established := false }
      ports := d.fcu.ports.map fun e => { e with stuck := false } } }

/-- Every FREE node becomes DRAINING, its confirmed source kept (R92, R97). -/
def drainFree (d : Device) : Device :=
  { d with fcu := { d.fcu with
      nodes := d.fcu.nodes.map fun e => if e.state = .free then { e with state := .draining } else e } }

/-! ### Draining and the grant of nodes (R60, R81, R95) -/

/-- An order names a node: it selects or releases it, joins a port to it, or is CLEAR_ALL (R87, R95). -/
def orderNames (k : OrderKind) (n : FeedNode) : Bool :=
  match k with
  | .clearAll => true
  | .nodeSelect m _ | .nodeRelease m | .portJoin _ m => decide (m = n)
  | .portPark _ | .portTest _ => false

/-- The draining rule (R95). -/
def drained (d : Device) (n : FeedNode) : Bool :=
  decide ((node d n).state = .draining) && decide ((node d n).confirmed = .none)
    && ((List.finRange 32).all fun p =>
        decide ((port d p).confirmed ≠ .node n) && decide ((port d p).confirmed ≠ .unknown))
    && (match d.fcu.inFlight with
        | none => true
        | some o => !orderNames o.kind n)

/-- A booking takes a FREE node, at arming or by a grant (R58, R60, R81, R160). -/
def takeNode (i : SlotId) (n : FeedNode) (d : Device) : Device :=
  match bookingAt d i with
  | none => d
  | some b =>
    let h := handleAt d i
    let lane := ((d.psu.selectors.get i).map selectedLane).getD b.working
    let d := updNode n (fun e => { e with
      state := .owned, owner := some h, established := false,
      desired := some lane, stuck := e.stuck && decide (e.desired = some lane) }) d
    let d := updBooking i (fun b => { b with node := some n, nodeWait := false }) d
    let d := updMeter i (fun m => { m with node := some n }) d
    b.recipients.foldl (fun d p => placeLive ⟨h, n⟩ p d) d

/-- A node that meets the draining rule becomes FREE and is handed to the BKC, which grants it to the head of the node
wait list or leaves it FREE (R60). -/
def nodeFreed (n : FeedNode) (d : Device) : Device :=
  let d := updNode n (fun e => { e with state := .free }) d
  match d.bkc.nodeWait with
  | [] => d
  | i :: rest => notifyAll bookingNotice (takeNode i n { d with bkc := { d.bkc with nodeWait := rest } })

/-- The draining rule for every DRAINING node, in node order (R95). -/
def freeNodes (d : Device) : Device :=
  (List.finRange 48).foldl (fun d n => if drained d n then nodeFreed n d else d) d

/-- A node leaves OWNED: DRAINING, with no owner and no desired source (R81). -/
def releaseNode (n : FeedNode) (d : Device) : Device :=
  updNode n (fun e => { e with
    state := .draining, owner := none, established := false,
    desired := none, stuck := e.stuck && decide (e.desired = none) }) d

/-! ### The reconciler (R87, R88, R89) -/

/-- An entry differs and is not stuck (R87). -/
def nodeDiffers (e : NodeEntry) : Bool := !e.stuck && decide (e.confirmed ≠ desiredSource e)
def portDiffers (e : PortEntry) : Bool := !e.stuck && decide (e.confirmed ≠ desiredAttachment e)

/-- Class 1: the ports whose desired attachment is PARK. -/
def parkOrder (d : Device) (p : HandoffPort) : Option OrderKind :=
  let e := port d p
  if portDiffers e && decide (desiredAttachment e = .park) then some (.portPark p) else none

/-- Class 2: OWNED nodes with established set. -/
def switchOrder (d : Device) (n : FeedNode) : Option OrderKind :=
  let e := node d n
  if nodeDiffers e && decide (e.state = .owned) && e.established then e.desired.map fun l => .nodeSelect n l else none

/-- Class 3: OWNED nodes with established clear, and DRAINING nodes, in node order. -/
def setUpOrder (d : Device) (n : FeedNode) : Option OrderKind :=
  let e := node d n
  if nodeDiffers e then
    match e.state with
    | .owned => if e.established then none else e.desired.map fun l => .nodeSelect n l
    | .draining => some (.nodeRelease n)
    | .free => none
  else none

/-- Class 4: the ports whose desired attachment is a node. -/
def joinOrder (d : Device) (p : HandoffPort) : Option OrderKind :=
  let e := port d p
  if portDiffers e then
    match desiredAttachment e with
    | .node n => some (.portJoin p n)
    | .park | .test | .unknown => none
  else none

/-- Class 5: the ports whose desired attachment is TEST. -/
def testOrder (d : Device) (p : HandoffPort) : Option OrderKind :=
  let e := port d p
  if portDiffers e && decide (desiredAttachment e = .test) then some (.portTest p) else none

/-- The order the reconciler chooses: the first class that holds a differing entry, the lowest entry in it (R88). -/
def chooseOrder (d : Device) : Option OrderKind :=
  match (List.finRange 32).findSome? (parkOrder d) with
  | some k => some k
  | none =>
    match (List.finRange 48).findSome? (switchOrder d) with
    | some k => some k
    | none =>
      match (List.finRange 48).findSome? (setUpOrder d) with
      | some k => some k
      | none =>
        match (List.finRange 32).findSome? (joinOrder d) with
        | some k => some k
        | none => (List.finRange 32).findSome? (testOrder d)

/-- Sends a new order with the next tag and starts its timer (R89). -/
def sendOrder (k : OrderKind) (d : Device) : Device :=
  { d with fcu := { d.fcu with
      inFlight := some ⟨k, d.fcu.nextTag, 1, d.tb.clock + d.csc.image.defaults.fabricTimeout⟩
      nextTag := d.fcu.nextTag + 1
      sent := orderUnit k d.fcu.nextTag } }

/-- The reconciler (R87): it runs once start-up has ended and not in HALTED (R98). -/
def reconcile (d : Device) : Device :=
  if d.cpi.phase = .operating ∧ d.fcu.inFlight = none then
    match chooseOrder d with
    | some k => sendOrder k d
    | none => d
  else d

/-! ### Completion of an order (R90 to R98) -/

def dropOrder (d : Device) : Device := { d with fcu := { d.fcu with inFlight := none } }

/-- The end of start-up (R98, R198 step 5): the device status becomes RUNNING or DEFAULTS and the engine begins. -/
def startUpEnd (d : Device) : Device :=
  if d.cpi.phase = .clearAll then { d with cpi := { d.cpi with phase := .operating, status := d.cpi.boot } } else d

/-- A fabric reply or notice has been taken: the draining rule, then the reconciler (R90). -/
def fabricSettled (d : Device) : Device := reconcile (startUpEnd (freeNodes d))

/-- The confirmed value an acknowledged order gives (R79, R90, R98). -/
def confirmOrder (k : OrderKind) (d : Device) : Device :=
  match k with
  | .clearAll => confirmAll .none .park d
  | .nodeSelect n l =>
    updNode n (fun e => { e with established := e.established || decide (e.state = .owned) }) (confirmNode n (.lane l) d)
  | .nodeRelease n => confirmNode n .none d
  | .portJoin p n => confirmPort p (.node n) d
  | .portPark p => confirmPort p .park d
  | .portTest p => confirmPort p .test d

/-- A refused order: the entry's last refusal, JOIN_FAILED for a port order, and the stuck mark when the desired value
equals the one ordered as the refusal comes (R91), also where it changed and changed back meanwhile (log entry 62). A refused
CLEAR_ALL marks no entry and is no entry's last refusal (R98; log entry 57). -/
def refuseOrder (k : OrderKind) (reason : Byte) (d : Device) : Device :=
  let refusedPort (p : HandoffPort) (a : Attachment) : Device :=
    latch (portRecord p) srcJoinFailed
      (updPort p (fun e => { e with refusal := some reason, stuck := e.stuck || decide (desiredAttachment e = a) }) d)
  let refusedNode (n : FeedNode) (src : Option Lane) : Device :=
    updNode n (fun e => { e with refusal := some reason, stuck := e.stuck || decide (e.desired = src) }) d
  match k with
  | .clearAll => d
  | .nodeSelect n l => refusedNode n (some l)
  | .nodeRelease n => refusedNode n none
  | .portJoin p n => refusedPort p (.node n)
  | .portPark p => refusedPort p .park
  | .portTest p => refusedPort p .test

/-- A second expiry: the entry's confirmed value becomes UNKNOWN, stuck as in R91 (log entry 62); an UNKNOWN port drains every
FREE node (R92). CLEAR_ALL leaves the confirmed values (R98). -/
def loseOrder (k : OrderKind) (d : Device) : Device :=
  let lostPort (p : HandoffPort) (a : Attachment) : Device :=
    drainFree (updPort p (fun e => { e with stuck := e.stuck || decide (desiredAttachment e = a) }) (confirmPort p .unknown d))
  let lostNode (n : FeedNode) (src : Option Lane) : Device :=
    updNode n (fun e => { e with stuck := e.stuck || decide (e.desired = src) }) (confirmNode n .unknown d)
  match k with
  | .clearAll => d
  | .nodeSelect n l => lostNode n (some l)
  | .nodeRelease n => lostNode n none
  | .portJoin p n => lostPort p (.node n)
  | .portPark p => lostPort p .park
  | .portTest p => lostPort p .test

/-- A reply that is not the reply to the order in flight (R93). -/
def strayReply (d : Device) : Device := latch deviceRecord srcFabricProtocol d

/-- The order in flight, when it carries the tag. -/
def orderWithTag (tag : Byte) (d : Device) : Option InFlight := d.fcu.inFlight.filter fun o => decide (o.tag = tag)

/-- An ACK (R90, R93). -/
def fabricAck (tag : Byte) (d : Device) : Device :=
  match orderWithTag tag d with
  | some o => fabricSettled (confirmOrder o.kind (dropOrder d))
  | none => strayReply d

/-- A NAK (R91, R93). -/
def fabricNak (tag reason : Byte) (d : Device) : Device :=
  match orderWithTag tag d with
  | some o => fabricSettled (latch deviceRecord srcFabricNak (refuseOrder o.kind reason (dropOrder d)))
  | none => strayReply d

/-- A RESET_NOTICE (R96, R98). -/
def resetNoticeTaken (d : Device) : Device :=
  fabricSettled (latch deviceRecord srcFabricResetSeen (clearMarks (confirmAll .none .park (dropOrder d))))

/-- A unit received from the fabric (R93). -/
def folReceive (reply : List Byte) (d : Device) : Device :=
  match folReply reply with
  | some (.ack tag) => fabricAck tag d
  | some (.nak tag reason) => fabricNak tag reason d
  | some .resetNotice => resetNoticeTaken d
  | none => strayReply d

/-- The order timer expires (R92), at its own instant. -/
def orderTimerExpired (d : Device) : Device :=
  match d.fcu.inFlight with
  | none => d
  | some o =>
    let d := advanceTo o.expiry d
    if o.sends = 1 then
      { d with fcu := { d.fcu with
          inFlight := some { o with sends := 2, expiry := d.tb.clock + d.csc.image.defaults.fabricTimeout }
          sent := orderUnit o.kind o.tag } }
    else fabricSettled (latch deviceRecord srcFabricTimeout (loseOrder o.kind (dropOrder d)))

def execFabricAck (tag : Byte) (s : State) : Host.Outcome State Fault Refusal := onDevice (fabricAck tag) s

def execFabricNak (tag reason : Byte) (s : State) : Host.Outcome State Fault Refusal := onDevice (fabricNak tag reason) s

/-- FOL_REPLY_NOT_ADMITTED (R93). A unit that Formats does admit is taken as the reply it is. -/
def execFolReplyNotAdmitted (reply : List Byte) (s : State) : Host.Outcome State Fault Refusal := onDevice (folReceive reply) s

def execResetNotice (s : State) : Host.Outcome State Fault Refusal := onDevice resetNoticeTaken s

def execOrderTimerExpiry (s : State) : Host.Outcome State Fault Refusal := onDevice orderTimerExpired s

/-! ### PORT_TEST, PORT_UNTEST, FABRIC_RESYNC (R84, R85, R97) -/

/-- The lowest-numbered holding booking that lists the port and whose reserved interval contains now (R84). -/
def testBlocker (d : Device) (p : HandoffPort) : Option Handle :=
  ((bookings d).find? fun x =>
    holds x.2 && x.2.recipients.contains p && containsInstant (intervalFirst x.2) (intervalEnd x.2) (now d)).map
      fun x => handleAt d x.1

/-- The claims, the desired and the confirmed attachment of a port, as PORT_TEST answers them (R84). -/
def claimFields (d : Device) (p : HandoffPort) : List Field :=
  let e := port d p
  optGroup [2, 1] (e.live.map fun c => [u2 (handleCode c.handle), u1 c.node.val])
    ++ [flag e.test, u2 (attachmentCode (desiredAttachment e)), u2 (attachmentCode e.confirmed)]

def portTest (_p : PortId) (m : Memory) (d : Device) : Device × Reply :=
  match asFin 32 (param m 0 1) with
  | none => (d, failReply .badParameter (some 0))
  | some p =>
    match testBlocker d p with
    | some h => (d, ⟨.portConflict, some 0, pack 0 [u2 (handleCode h)]⟩)
    | none =>
      let d := setClaims p (port d p).live true d
      (reconcile d, doneReply (claimFields d p))

def portUntest (_p : PortId) (m : Memory) (d : Device) : Device × Reply :=
  match asFin 32 (param m 0 1) with
  | none => (d, failReply .badParameter (some 0))
  | some p =>
    let d := setClaims p (port d p).live false d
    (reconcile d, doneReply (claimFields d p))

def fabricResync (_p : PortId) (_m : Memory) (d : Device) : Device × Reply :=
  (reconcile (drainFree (clearMarks (confirmAll .unknown .unknown d))), doneReply [])

def execPortTest (s : State) : Host.Outcome State Fault Refusal := onDevice (serve .portTest portTest) s

def execPortUntest (s : State) : Host.Outcome State Fault Refusal := onDevice (serve .portUntest portUntest) s

def execFabricResync (s : State) : Host.Outcome State Fault Refusal := onDevice (serve .fabricResync fabricResync) s

end Sys2Proof.Machine
end

