-- ==== Sys2Proof/Machine/Protection.lean ====
section
/-! DEFINITION. Protection switching (06): the selectors, their timers, the arbiter of each shared protection lane, the lane
events the FRA hands over, and the commands PROT_FORCE, PROT_LOCK and PROT_CLEAR. -/

namespace Sys2Proof.Machine

/-! ### Views -/

def selectorAt (d : Device) (i : SlotId) : Option Selector := d.psu.selectors.get i
def lane (d : Device) (l : Lane) : ProtectionLane := d.psu.lanes.get l

/-- A lane is failed in the PSU's view (R102). -/
def laneFailed (d : Device) (l : Lane) : Bool := d.psu.failed.get l

/-- A lane is quarantined in the PSU's view (R102). -/
def laneQuarantined (d : Device) (l : Lane) : Bool := d.psu.quarantined.get (trunkOf l)

/-- The protection lane is free for a booking: no holder, or that booking (R102). -/
def freeFor (d : Device) (l : Lane) (h : Handle) : Bool :=
  match (lane d l).holder with
  | none => true
  | some x => decide (x = h)

/-- The three states that hold the protection lane (R117). -/
def holdsLane (s : SelectorState) : Bool :=
  match s with
  | .onProtection | .waitRestore | .forcedProtection => true
  | .unprotected | .onWorking | .holdOff | .waiting | .lockedWorking => false

/-- The hold-off in force for a slot's booking, in ms; the return timer has the same length (R103). -/
def holdOffOf (d : Device) (i : SlotId) : Nat :=
  ((bookingAt d i).bind fun b => b.holdOff).getD d.csc.image.defaults.holdOff

/-- The WTR in force for a slot's booking, in seconds (R103). -/
def wtrOf (d : Device) (i : SlotId) : Nat := ((bookingAt d i).bind fun b => b.wtr).getD d.csc.image.defaults.wtr

/-! ### Waiting lists (R118, R120) -/

/-- A joining booking stands behind every booking of its own or higher priority (R118). -/
def insertWaiter (w : Waiter) : List Waiter → List Waiter
  | [] => [w]
  | x :: rest => if x.priority < w.priority then w :: x :: rest else x :: insertWaiter w rest

/-- Some booking stands on some waiting list (R120). -/
def someWaiting (d : Device) : Bool := (List.finRange 128).any fun l => !(lane d l).waiting.isEmpty

/-- SHARED_PROTECTION_DENIED follows the waiting lists (R120). -/
def refreshDenied (d : Device) : Device := setDeviceLevel srcSharedDenied (someWaiting d) d

/-- The bookings that joined in one event stand in slot order among those of their priority (R118): each joins anew, in slot
order, the list of those that were on it before. -/
def inSlotOrder (old now : List Waiter) : List Waiter :=
  let stood (w : Waiter) : Bool := old.any fun v => decide (v.handle = w.handle)
  let joined := (List.finRange 256).flatMap fun i => now.filter fun w => !stood w && decide (w.handle.slot = i)
  joined.foldl (fun ws w => insertWaiter w ws) (now.filter stood)

def joinWaiting (l : Lane) (i : SlotId) (d : Device) : Device :=
  let w : Waiter := ⟨handleAt d i, ((bookingAt d i).map fun b => b.priority).getD 0, d.tb.time⟩
  refreshDenied (updLane l (fun x => { x with waiting := insertWaiter w x.waiting }) d)

def leaveWaiting (l : Lane) (h : Handle) (d : Device) : Device :=
  refreshDenied (updLane l (fun x => { x with waiting := x.waiting.filter fun w => decide (w.handle ≠ h) }) d)

/-! ### One change of a selector (R101, R111, R117, R118) -/

/-- The selected lane of a booking changed: the PROTECTION notice, and the desired source of its node (R101). -/
def reselect (i : SlotId) (l : Lane) (d : Device) : Device :=
  match (bookingAt d i).bind fun b => b.node with
  | some n => notifyAll protectionNotice (setDesired n (some l) d)
  | none => notifyAll protectionNotice d

/-- The protection record follows a selector's change of state (R117, R118). -/
def followLane (i : SlotId) (old new : Selector) (d : Device) : Device :=
  match new.protection with
  | none => d
  | some p =>
    let d :=
      if holdsLane new.state && !holdsLane old.state then updLane p (fun x => { x with holder := some new.handle }) d
      else if holdsLane old.state && !holdsLane new.state then updLane p (fun x => { x with holder := none }) d
      else d
    if new.state = .waiting ∧ old.state ≠ .waiting then joinWaiting p i d
    else if old.state = .waiting ∧ new.state ≠ .waiting then leaveWaiting p new.handle d
    else d

/-- A selector takes a new value: the protection record, the selected lane and the notices follow (R101, R111, R117). -/
def moveSelector (i : SlotId) (new : Selector) (d : Device) : Device :=
  match selectorAt d i with
  | none => d
  | some old =>
    let d := followLane i old new (setSelector i (some new) d)
    let d := if selectedLane new ≠ selectedLane old then reselect i (selectedLane new) d else d
    if new.bothFailed && !old.bothFailed then notifyAll protectionNotice d else d

/-- The arbiter of a protection lane (R119): a lane with no holder, healthy and waited for goes to the first waiter whose
working lane is failed. -/
def arbitrate (l : Lane) (d : Device) : Device :=
  if (lane d l).holder = none ∧ laneFailed d l = false then
    match (lane d l).waiting.find? fun w =>
        ((selectorAt d w.handle.slot).map fun s => laneFailed d s.working).getD false with
    | none => d
    | some w =>
      match selectorAt d w.handle.slot with
      | none => d
      | some s => moveSelector w.handle.slot { s with state := .onProtection, timer := none } d
  else d

/-- A selector takes a new value; a release of its protection lane is followed by that lane's arbiter (R117). -/
def changeSelector (i : SlotId) (new : Selector) (d : Device) : Device :=
  match selectorAt d i with
  | none => d
  | some old =>
    let d := moveSelector i new d
    match new.protection with
    | some p => if holdsLane old.state && !holdsLane new.state then arbitrate p d else d
    | none => d

/-! ### Timers (R103, R106, R109, R110) -/

/-- The expiry of a hold-off timer (R106). One of length 0 at step 2 of R121 takes a lane that the same event made healthy,
ahead of the bookings that wait for it (log entry 46). -/
def holdOffEnds (i : SlotId) (d : Device) : Device :=
  match selectorAt d i with
  | none => d
  | some s =>
    match s.protection with
    | none => d
    | some p =>
      if laneFailed d p || laneQuarantined d p then
        changeSelector i { s with state := .onWorking, timer := none, bothFailed := true } d
      else if freeFor d p s.handle then changeSelector i { s with state := .onProtection, timer := none } d
      else changeSelector i { s with state := .waiting, timer := none } d

/-- A working failure starts the hold-off (R105); a hold-off of 0 expires in the same event (R103). -/
def startHoldOff (i : SlotId) (d : Device) : Device :=
  match selectorAt d i with
  | none => d
  | some s =>
    let n := holdOffOf d i
    let d := changeSelector i { s with state := .holdOff, timer := some ⟨.holdOff, d.tb.clock + n⟩, bothFailed := false } d
    if n = 0 then holdOffEnds i d else d

/-- The selector returns to its working lane and releases the protection lane (R108 to R110). -/
def returnToWorking (i : SlotId) (d : Device) : Device :=
  match selectorAt d i with
  | none => d
  | some s => changeSelector i { s with state := .onWorking, timer := none } d

/-- The return timer starts in ON_PROTECTION (R108, R109, R110); a length of 0 expires in the same event (R103). -/
def startReturn (i : SlotId) (d : Device) : Device :=
  match selectorAt d i with
  | none => d
  | some s =>
    let n := holdOffOf d i
    let d := changeSelector i { s with state := .onProtection, timer := some ⟨.returnTimer, d.tb.clock + n⟩ } d
    if n = 0 then returnToWorking i d else d

/-- With both lanes healthy: WAIT_RESTORE when the WTR in force is above 0, otherwise ON_PROTECTION without a timer
(R108, R109, R116). -/
def waitOrStay (i : SlotId) (d : Device) : Device :=
  match selectorAt d i with
  | none => d
  | some s =>
    if wtrOf d i = 0 then changeSelector i { s with state := .onProtection, timer := none, bothFailed := false } d
    else changeSelector i { s with
      state := .waitRestore, timer := some ⟨.waitToRestore, d.tb.clock + wtrOf d i * 1000⟩, bothFailed := false } d

/-! ### Lane events (R102, R105 to R111) -/

/-- A selector takes a working failure. -/
def workingFailure (i : SlotId) (d : Device) : Device :=
  match selectorAt d i with
  | none => d
  | some s =>
    match s.state with
    | .onWorking => startHoldOff i d
    | .onProtection =>
      if s.timer.isSome then changeSelector i { s with timer := none, bothFailed := true } d else d
    | .waitRestore => changeSelector i { s with state := .onProtection, timer := none } d
    | .unprotected | .holdOff | .waiting | .forcedProtection | .lockedWorking => d

/-- A selector takes a working recovery. -/
def workingRecovery (i : SlotId) (d : Device) : Device :=
  match selectorAt d i with
  | none => d
  | some s =>
    match s.state with
    | .onWorking => changeSelector i { s with bothFailed := false } d
    | .holdOff | .waiting => changeSelector i { s with state := .onWorking, timer := none } d
    | .onProtection =>
      match s.protection with
      | none => d
      | some p =>
        if laneFailed d p then
          let d := changeSelector i { s with bothFailed := false } d
          if laneQuarantined d p then returnToWorking i d else startReturn i d
        else waitOrStay i d
    | .unprotected | .waitRestore | .forcedProtection | .lockedWorking => d

/-- What happens to a protection lane (R102). -/
inductive ProtectionEvent where
  | failure | quarantine | recovery
deriving DecidableEq, Repr

/-- A holder takes a protection event (R109, R110). -/
def protectionTaken (e : ProtectionEvent) (i : SlotId) (d : Device) : Device :=
  match selectorAt d i with
  | none => d
  | some s =>
    match s.state, e with
    | .onProtection, .failure =>
      if laneFailed d s.working then changeSelector i { s with timer := none, bothFailed := true } d else startReturn i d
    | .onProtection, .quarantine =>
      if laneFailed d s.working then changeSelector i { s with timer := none, bothFailed := true } d
      else returnToWorking i d
    | .onProtection, .recovery =>
      if laneFailed d s.working then changeSelector i { s with timer := none, bothFailed := false } d else waitOrStay i d
    | .waitRestore, .failure => startReturn i d
    | .waitRestore, .quarantine => returnToWorking i d
    | .waitRestore, .recovery => d
    | .unprotected, _ | .onWorking, _ | .holdOff, _ | .waiting, _ | .forcedProtection, _ | .lockedWorking, _ => d

/-- In ON_WORKING with BOTH_FAILED, a protection recovery clears the flag, and a failed working lane starts the hold-off
afresh (R111). -/
def bothFailedRecovery (p : Lane) (i : SlotId) (d : Device) : Device :=
  match selectorAt d i with
  | none => d
  | some s =>
    if s.state = .onWorking ∧ s.bothFailed = true ∧ s.protection = some p then
      let d := changeSelector i { s with bothFailed := false } d
      if laneFailed d s.working then startHoldOff i d else d
    else d

/-- The protection event of a lane, from the old and the new view (R102). -/
def protectionEventOf (oldFailed newFailed : Vector Bool 128) (oldQuar newQuar : Vector Bool 16) (l : Lane) :
    Option ProtectionEvent :=
  if !oldQuar.get (trunkOf l) && newQuar.get (trunkOf l) then some .quarantine
  else if !oldFailed.get l && newFailed.get l then some .failure
  else if oldFailed.get l && !newFailed.get l then some .recovery
  else none

/-- Step 2 of R121 for one slot: the selector whose working lane the event names takes its working event. -/
def workingStep (oldFailed newFailed : Vector Bool 128) (d : Device) (i : SlotId) : Device :=
  match selectorAt d i with
  | none => d
  | some s =>
    if !oldFailed.get s.working && newFailed.get s.working then workingFailure i d
    else if oldFailed.get s.working && !newFailed.get s.working then workingRecovery i d
    else d

/-- Step 3 of R121 for one protection lane: the holder, the arbiter, and on a recovery the BOTH_FAILED selectors, whose joining
of the list stands in slot order with that of step 2 (R118); `old` is the list before the event. -/
def protectionStep (e : ProtectionEvent) (old : List Waiter) (l : Lane) (d : Device) : Device :=
  let d :=
    match (lane d l).holder with
    | some h => protectionTaken e h.slot d
    | none => d
  let d := arbitrate l d
  match e with
  | .recovery =>
    updLane l (fun x => { x with waiting := inSlotOrder old x.waiting })
      ((List.finRange 256).foldl (fun d i => bothFailedRecovery l i d) d)
  | .failure | .quarantine => d

/-- One event of the FRA (R121): the view, the working events in slot order, the protection events in lane order. -/
def laneEvents (newFailed : Vector Bool 128) (newQuar : Vector Bool 16) (d : Device) : Device :=
  let oldFailed := d.psu.failed
  let oldQuar := d.psu.quarantined
  let oldLanes := d.psu.lanes
  let d := { d with psu := { d.psu with failed := newFailed, quarantined := newQuar } }
  let d := (List.finRange 256).foldl (workingStep oldFailed newFailed) d
  (List.finRange 128).foldl (fun d l =>
    match protectionEventOf oldFailed newFailed oldQuar newQuar l with
    | some e => protectionStep e (oldLanes.get l).waiting l d
    | none => d) d

/-! ### Arming and the end of a selector (R104, R122) -/

/-- The selector of an arming booking (R104). A hold-off of 0 that ends in this event with BOTH_FAILED raises the PROTECTION
notice (R111; log entry 45). -/
def createSelector (i : SlotId) (d : Device) : Device :=
  match bookingAt d i with
  | none => d
  | some b =>
    let h := handleAt d i
    match b.protection with
    | none => setSelector i (some ⟨h, .unprotected, b.working, none, none, false⟩) d
    | some p =>
      if laneFailed d b.working && !laneFailed d p && !laneQuarantined d p && freeFor d p h then
        updLane p (fun x => { x with holder := some h })
          (setSelector i (some ⟨h, .onProtection, b.working, some p, none, false⟩) d)
      else
        let d := setSelector i (some ⟨h, .onWorking, b.working, some p, none, false⟩) d
        if laneFailed d b.working then startHoldOff i d else d

/-- The end of a selector (R122). -/
def endSelector (i : SlotId) (d : Device) : Device :=
  match selectorAt d i with
  | none => d
  | some s =>
    let d := setSelector i none d
    match s.protection with
    | none => d
    | some p =>
      if s.state = .waiting then leaveWaiting p s.handle d
      else if holdsLane s.state then arbitrate p (updLane p (fun x => { x with holder := none }) d)
      else d

/-! ### The expiry events -/

/-- The running timer of a slot's selector, when it is of the given kind. -/
def runningTimer (k : TimerKind) (i : SlotId) (d : Device) : Option SelectorTimer :=
  ((selectorAt d i).bind fun s => s.timer).filter fun t => decide (t.kind = k)

/-- A selector timer expires at its own instant; a timer that does not run does not expire (R103, R122). -/
def timerExpires (k : TimerKind) (f : SlotId → Device → Device) (i : SlotId) (d : Device) : Device :=
  match runningTimer k i d with
  | none => d
  | some t => reconcile (f i (advanceTo t.expiry d))

/-- HOLD_OFF_EXPIRY (R106). -/
def execHoldOffExpiry (slot : SlotId) (s : State) : Host.Outcome State Fault Refusal :=
  onDevice (timerExpires .holdOff holdOffEnds slot) s

/-- WAIT_TO_RESTORE_EXPIRY (R110). -/
def execWaitToRestoreExpiry (slot : SlotId) (s : State) : Host.Outcome State Fault Refusal :=
  onDevice (timerExpires .waitToRestore returnToWorking slot) s

/-- RETURN_TIMER_EXPIRY (R109). -/
def execReturnTimerExpiry (slot : SlotId) (s : State) : Host.Outcome State Fault Refusal :=
  onDevice (timerExpires .returnTimer returnToWorking slot) s

/-! ### PROT_FORCE, PROT_LOCK, PROT_CLEAR (R113 to R116) -/

/-- The time left of a selector timer, in the unit of its length: ms of a hold-off or return timer, s of a wait-to-restore
timer (R103; log entry 51). -/
def timerLeft (d : Device) (t : SelectorTimer) : Nat :=
  match t.kind with
  | .holdOff | .returnTimer => t.expiry - d.tb.clock
  | .waitToRestore => secondsLeft d t.expiry

/-- The fields of a selector in a response (R78, R113): state, selected lane, BOTH_FAILED, timer kind and time left. With no
timer running the kind is 0 and the time left is 2 bytes of zero, without a presence byte (log entry 63). -/
def selectorFields (d : Device) (s : Selector) : List Field :=
  [u1 (selectorStateCode s.state), u1 (selectedLane s).val, flag s.bothFailed, u1 (timerCode s.timer),
   u2 ((s.timer.map (timerLeft d)).getD 0)]

/-- The response of a PROT command that ends DONE (R113). -/
def protReply (h : Handle) (d : Device) : Reply :=
  match selectorAt d h.slot with
  | none => doneReply [u2 (handleCode h)]
  | some s =>
    doneReply ([u2 (handleCode h)] ++ selectorFields d s
      ++ optField 2 ((s.protection.bind fun p => (lane d p).holder).map handleCode))

/-- The checks of R113, and then the command's own rule on the selector: a refusal, or the changed device. -/
def protCommand (rule : SlotId → Selector → Device → Except Result Device) (_p : PortId) (m : Memory) (d : Device) :
    Device × Reply :=
  let h := handleParam m 0
  match bookingOf d h with
  | none => (d, failReply .noSuchBooking (some 0))
  | some b =>
    match b.state with
    | .pending => (d, failReply .wrongState (some 0))
    | .settling | .unbilled => (d, failReply .tooLate (some 0))
    | .armed | .live | .overrun =>
      match selectorAt d h.slot with
      | none => (d, failReply .wrongState (some 0))
      | some s =>
        match rule h.slot s d with
        | .error r => (d, failReply r (some 0))
        | .ok d' => let d' := reconcile d'; (d', protReply h d')

/-- PROT_FORCE (R114). -/
def forceRule (i : SlotId) (s : Selector) (d : Device) : Except Result Device :=
  match s.state with
  | .unprotected | .lockedWorking => .error .wrongState
  | .forcedProtection => .ok d
  | .onWorking | .holdOff | .waiting | .onProtection | .waitRestore =>
    match s.protection with
    | none => .error .wrongState
    | some p =>
      if laneFailed d p || laneQuarantined d p || !freeFor d p s.handle then .error .protectionConflict
      else .ok (changeSelector i { s with state := .forcedProtection, timer := none, bothFailed := false } d)

/-- PROT_LOCK (R115). -/
def lockRule (i : SlotId) (s : Selector) (d : Device) : Except Result Device :=
  match s.state with
  | .unprotected | .forcedProtection => .error .wrongState
  | .lockedWorking => .ok d
  | .onWorking | .holdOff | .waiting | .onProtection | .waitRestore =>
    .ok (changeSelector i { s with state := .lockedWorking, timer := none, bothFailed := false } d)

/-- PROT_CLEAR (R116). -/
def clearRule (i : SlotId) (s : Selector) (d : Device) : Except Result Device :=
  match s.state with
  | .lockedWorking =>
    let d := changeSelector i { s with state := .onWorking, timer := none } d
    .ok (if laneFailed d s.working then startHoldOff i d else d)
  | .forcedProtection =>
    let d :=
      if laneFailed d s.working then changeSelector i { s with state := .onProtection, timer := none } d
      else waitOrStay i d
    match s.protection with
    | none => .ok d
    | some p =>
      if laneQuarantined d p then .ok (protectionTaken .quarantine i d)
      else if laneFailed d p then .ok (protectionTaken .failure i d)
      else .ok d
  | .unprotected | .onWorking | .holdOff | .waiting | .onProtection | .waitRestore => .ok d

def execProtForce (s : State) : Host.Outcome State Fault Refusal := onDevice (serve .protForce (protCommand forceRule)) s

def execProtLock (s : State) : Host.Outcome State Fault Refusal := onDevice (serve .protLock (protCommand lockRule)) s

def execProtClear (s : State) : Host.Outcome State Fault Refusal := onDevice (serve .protClear (protCommand clearRule)) s

end Sys2Proof.Machine
end

