-- ==== Sys2Proof/Machine/Faults.lean ====
section
/-! DEFINITION. Fault records (08): how the FRA takes the changes an owning block hands it, quarantine, signal-fail, and the
commands ACTION_WRITE, TRUNK_QUARANTINE, TRUNK_RELEASE, FAULT_CLEAR, MASK_SET, MASK_CLEAR, MASK_WRITE and GROUP_WRITE. The
flap counter and its timer (R129 to R131) stand here because TRUNK_RELEASE changes them. -/

namespace Sys2Proof.Machine

/-! ### The changes of one event (R152) -/

/-- The level conditions of a line record, in the bit positions of R202. -/
def lineConditions (x : Line) : SourceSet :=
  (if x.los then srcLos else 0#22) ||| (if x.lowWarn.present then srcLowWarn else 0#22)
    ||| (if x.lowAlarm.present then srcLowAlarm else 0#22) ||| (if x.highAlarm.present then srcHighAlarm else 0#22)
    ||| (if x.frameLoss ≠ 0#8 then srcFrameLoss else 0#22) ||| (if x.upstream ≠ 0#8 then srcUpstream else 0#22)
    ||| (if x.reportGap then srcReportGap else 0#22) ||| (if x.flapLimit then srcFlapLimit else 0#22)

def line (d : Device) (t : Trunk) : Line := d.lmn.lines.get t

/-- A trunk enters QUARANTINED (R150); one that is already QUARANTINED stays so. -/
def quarantine (t : Trunk) (d : Device) : Device :=
  if (d.fra.trunks.get t).service = .quarantined then d
  else updRecord (trunkRecord t) (fun x => handPresent (x.present ||| srcQuarantined) x)
    (updTrunkFault t (fun f => { f with service := .quarantined }) d)

/-- The PSU's event (R149, R152 steps 4 and 5): signal-fail re-evaluated, handed over when a lane's signal-fail or a
trunk's service state differs from what was last handed. -/
def handLanes (d : Device) : Device :=
  let protect := carrying .protect d.csc.image
  let failed : Vector Bool 128 := Vector.ofFn fun l => laneSignalFail protect d l
  let quarantined : Vector Bool 16 := Vector.ofFn fun t => decide ((d.fra.trunks.get t).service = .quarantined)
  if failed = d.psu.failed ∧ quarantined = d.psu.quarantined then d
  else reconcile (laneEvents failed quarantined d)

/-- Steps 1 to 3 of R152 for one trunk: the present conditions and lane sets as the LMN now holds them, the onsets latched,
an onset of an unmasked source that carries QUARANTINE applied. -/
def handTrunk (d : Device) (t : Trunk) : Device :=
  let x := record d (trunkRecord t)
  let p := lineConditions (line d t) ||| (x.present &&& srcQuarantined)
  let onsets := p &&& ~~~x.present
  let d := updRecord (trunkRecord t) (handPresent p)
    (updTrunkFault t (fun f => { f with frameLoss := (line d t).frameLoss, upstream := (line d t).upstream }) d)
  if hasSource (onsets &&& ~~~x.mask) (carrying .quarantine d.csc.image) then quarantine t d else d

/-- The FRA takes the changes of one event on the given trunks (R152). -/
def handTrunks (ts : List Trunk) (d : Device) : Device := handLanes (ts.foldl handTrunk d)

/-- The FRA takes the transmitter conditions of a port (R143, R152). -/
def handPort (p : HandoffPort) (d : Device) : Device :=
  let x := d.lmn.transmitters.get p
  updRecord (portRecord p)
    (handPresent ((if x.txFault then srcTxFault else 0#22) ||| (if x.farEndDown then srcFarEndDown else 0#22))) d

/-! ### Flap counter and clean-interval timer (R129 to R131) -/

/-- The expiry instant of a clean interval that starts now: 2^k seconds (R129). -/
def cleanExpiry (d : Device) : Nat := d.tb.clock + 2 ^ d.csc.image.defaults.flapExponent * 1000

/-- FLAP_LIMIT is present exactly while the counter is above the flap limit (R131). -/
def setFlap (d : Device) (count : Nat) (x : Line) : Line :=
  { x with flapCounter := count, flapLimit := decide (d.csc.image.defaults.flapLimit < count) }

/-- The clean-interval timer restarts (R130). -/
def restartClean (d : Device) (x : Line) : Line := { x with cleanTimer := some (cleanExpiry d) }

/-! ### ACTION_WRITE (R148, R6) -/

/-- The action stored when an action is written for a source: NOTIFY in place of one not allowed (R6). -/
def allowedAction (i : Fin 22) (a : Action) : Action :=
  match a with
  | .notify => .notify
  | .protect => if i.val = 0 ∨ i.val = 2 ∨ i.val = 3 ∨ i.val = 4 then .protect else .notify
  | .quarantine => if i.val = 0 ∨ i.val = 2 ∨ i.val = 7 then .quarantine else .notify

/-- The record class of a class code and a number within it (R153, R202). -/
def recordOf (cls num : Nat) : Except Nat (Fin 49) :=
  if cls = 0 then (if h : num < 16 then .ok (trunkRecord ⟨num, h⟩) else .error 1)
  else if cls = 1 then (if h : num < 32 then .ok (portRecord ⟨num, h⟩) else .error 1)
  else if cls = 2 then (if num = 0 then .ok deviceRecord else .error 1)
  else .error 0

/-- The first and last-plus-one bit position of a class's sources (R202). -/
def classRange (cls : Nat) : Option (Nat × Nat) :=
  if cls = 0 then some (0, 9) else if cls = 1 then some (9, 13) else if cls = 2 then some (13, 22) else none

def actionWrite (_p : PortId) (m : Memory) (d : Device) : Device × Reply :=
  match classRange (param m 0 1) with
  | none => (d, failReply .badParameter (some 0))
  | some (low, high) =>
    match asFin 22 (param m 1 1) with
    | none => (d, failReply .badParameter (some 1))
    | some i =>
      if low ≤ i.val ∧ i.val < high then
        match actionOf (param m 2 1) with
        | none => (d, failReply .badParameter (some 2))
        | some a =>
          let img := d.csc.image
          let d := setUnsaved (setImage { img with actions := img.actions.set i.val (allowedAction i a) i.isLt } d)
          (handLanes d, doneReply [u1 (actionCode (allowedAction i a))])
      else (d, failReply .badParameter (some 1))

def execActionWrite (s : State) : Host.Outcome State Fault Refusal := onDevice (serve .actionWrite actionWrite) s

/-! ### TRUNK_QUARANTINE and TRUNK_RELEASE (R150, R151) -/

/-- The fields of a record as the fault-record table shows them (R159); a record that is no trunk's carries zero in the
fields of trunk records (log entry 14). The responses of R150 and R151 show a trunk's record in the same way, with its class
and number in front (log entry 68). -/
def recordFields (d : Device) (r : Fin 49) : List Field :=
  let x := record d r
  let trunk : Option Trunk := asFin 16 r.val
  let f := trunk.map fun t => d.fra.trunks.get t
  let cls := if r.val < 16 then 0 else if r.val < 48 then 1 else 2
  let num := if r.val < 16 then r.val else if r.val < 48 then r.val - 16 else 0
  [u1 cls, u1 num, u4 x.present.toNat, u1 ((f.map fun f => f.frameLoss.toNat).getD 0),
   u1 ((f.map fun f => f.upstream.toNat).getD 0), u4 x.latched.toNat, u4 x.mask.toNat, u1 x.groups.toNat,
   u1 ((f.map fun f => serviceCode f.service).getD 0)]

def trunkQuarantine (_p : PortId) (m : Memory) (d : Device) : Device × Reply :=
  match asFin 16 (param m 0 1) with
  | none => (d, failReply .badParameter (some 0))
  | some t =>
    let d := handLanes (quarantine t d)
    (d, doneReply (recordFields d (trunkRecord t)))

/-- The service state becomes NORMAL and QUARANTINED ends, its latched flag kept (R151 step 1). -/
def releaseTrunk (t : Trunk) (d : Device) : Device :=
  updRecord (trunkRecord t) (fun x => handPresent (x.present &&& ~~~srcQuarantined) x)
    (updTrunkFault t (fun f => { f with service := .normal }) d)

def trunkRelease (_p : PortId) (m : Memory) (d : Device) : Device × Reply :=
  match asFin 16 (param m 0 1) with
  | none => (d, failReply .badParameter (some 0))
  | some t =>
    let d := releaseTrunk t d
    let d := updLine t (fun x => restartClean d (setFlap d 0 x)) d
    let d := handTrunks [t] d
    (d, doneReply (recordFields d (trunkRecord t) ++ [u1 (line d t).flapCounter]))

def execTrunkQuarantine (s : State) : Host.Outcome State Fault Refusal := onDevice (serve .trunkQuarantine trunkQuarantine) s

def execTrunkRelease (s : State) : Host.Outcome State Fault Refusal := onDevice (serve .trunkRelease trunkRelease) s

/-! ### Targets (R153) -/

/-- The records of a target: form byte 0 with class and number, or form byte 1 with a group (log entry 13). Where the target
is refused, the offset of its first offending field. -/
def targetOf (d : Device) (m : Memory) : Except Nat (List (Fin 49)) :=
  if param m 0 1 = 0 then
    match recordOf (param m 1 1) (param m 2 1) with
    | .ok r => .ok [r]
    | .error i => .error (1 + i)
  else if param m 0 1 = 1 then
    if param m 1 1 ≤ 7 then
      .ok ((List.finRange 49).filter fun r => (record d r).groups.getLsbD (param m 1 1))
    else .error 1
  else .error 0

/-- The source set parameter; bits 22-31 name no source (R202). -/
def sourceSetOf (m : Memory) (off : Nat) : Option SourceSet :=
  if param m off 4 < 2 ^ 22 then some (BitVec.ofNat 22 (param m off 4)) else none

/-- A command on a target and a source set (R153): `f` changes each record by the named sources of its class, and the
response shows `view` of each record of the target in record order, as a list (R201; log entry 47). -/
def onTarget (f : SourceSet → FaultRecord → FaultRecord) (view : FaultRecord → SourceSet)
    (m : Memory) (d : Device) : Device × Reply :=
  match targetOf d m with
  | .error i => (d, failReply .badParameter (some i))
  | .ok rs =>
    match sourceSetOf m 4 with
    | none => (d, failReply .badParameter (some 4))
    | some set =>
      let d := rs.foldl (fun d r => updRecord r (f (set &&& classSources r)) d) d
      (d, doneReply (listField (rs.map fun r => u4 (view (record d r)).toNat) rs.length))

/-- A named latched flag is removed, and latched again when the source is present (R154). -/
def clearLatched (s : SourceSet) (x : FaultRecord) : FaultRecord :=
  { x with latched := (x.latched &&& ~~~s) ||| (x.latched &&& s &&& x.present) }

def faultClear (_p : PortId) (m : Memory) (d : Device) : Device × Reply := onTarget clearLatched (fun x => x.latched) m d

/-- A mask command, and the signal-fail it changes (R155). -/
def maskCommand (f : SourceSet → SourceSet → SourceSet) (m : Memory) (d : Device) : Device × Reply :=
  let out := onTarget (fun s x => { x with mask := f x.mask s }) (fun x => x.mask) m d
  if out.2.result = .done then (handLanes out.1, out.2) else out

def maskSet (_p : PortId) (m : Memory) (d : Device) : Device × Reply := maskCommand (fun old s => old ||| s) m d

def maskClear (_p : PortId) (m : Memory) (d : Device) : Device × Reply := maskCommand (fun old s => old &&& ~~~s) m d

/-- MASK_WRITE: a record of the target that has no named source is unmasked wholly (R155; log entry 54). -/
def maskWrite (_p : PortId) (m : Memory) (d : Device) : Device × Reply := maskCommand (fun _ s => s) m d

/-- The number of groups 0-6 a group set names. -/
def groupCount (v : Nat) : Nat := (List.range 7).countP fun i => v.testBit i

/-- GROUP_WRITE (R153): class, number, group set. -/
def groupWrite (_p : PortId) (m : Memory) (d : Device) : Device × Reply :=
  match recordOf (param m 0 1) (param m 1 1) with
  | .error i => (d, failReply .badParameter (some i))
  | .ok r =>
    if param m 2 1 < 128 ∧ groupCount (param m 2 1) ≤ 4 then
      let g : Byte := BitVec.ofNat 8 (param m 2 1) ||| 0x80#8
      (updRecord r (fun x => { x with groups := g }) d, doneReply [u1 g.toNat])
    else (d, failReply .badParameter (some 2))

def execFaultClear (s : State) : Host.Outcome State Fault Refusal := onDevice (serve .faultClear faultClear) s

def execMaskSet (s : State) : Host.Outcome State Fault Refusal := onDevice (serve .maskSet maskSet) s

def execMaskClear (s : State) : Host.Outcome State Fault Refusal := onDevice (serve .maskClear maskClear) s

def execMaskWrite (s : State) : Host.Outcome State Fault Refusal := onDevice (serve .maskWrite maskWrite) s

def execGroupWrite (s : State) : Host.Outcome State Fault Refusal := onDevice (serve .groupWrite groupWrite) s

end Sys2Proof.Machine
end

