-- ==== Sys2Proof/Machine/Time.lean ====
section
/-! DEFINITION. Network time (02): boundaries, the reference input, REFERENCE_LOST, and TIME_SET. Instants are instants of
the oscillator clock, in milliseconds. -/

namespace Sys2Proof.Machine

/-- The oscillator makes the boundaries (R21). -/
def oscillates (d : Device) : Bool :=
  match d.tb.ref with
  | .absent | .holdover => true
  | .relocking => decide (d.tb.spaced.val < 3)
  | .locked => false

/-- A boundary at an instant (R22, R28, R30): T advances, E starts again at that instant, the MARK goes out, and the boundary
is handed to the other blocks; to the LMN once it monitors (R125). -/
def makeBoundary (instant : Nat) (d : Device) : Device :=
  let t := d.tb.time + 1
  { d with
    tb := { d.tb with
      time := t, valid := d.tb.valid && decide (t ≠ 0#32), elapsed := d.tb.clock - instant
      marks := d.tb.marks ++ [markFrame t] }
    owed := {
      bkc := d.owed.bkc ++ [t]
      lmn := if d.lmn.monitoring then d.owed.lmn ++ [t] else d.owed.lmn
      svm := d.owed.svm ++ [t] } }

/-- BOUNDARY (R21): E reaches 1,000 ms, at its own instant; where the oscillator makes no boundary it does not happen. -/
def oscillatorBoundary (d : Device) : Device :=
  if oscillates d then
    let instant := d.tb.clock - d.tb.elapsed + Config.secondMs
    makeBoundary instant (advanceTo instant d)
  else d

/-- REFERENCE_LOST begins or ends (R27). -/
def setReferenceLost (present : Bool) (d : Device) : Device :=
  setDeviceLevel srcReferenceLost present { d with tb := { d.tb with refLost := present } }

def setReference (ref : RefState) (spaced : Fin 4) (d : Device) : Device :=
  { d with tb := { d.tb with ref := ref, spaced := spaced } }

/-- A spacing of 999 to 1,001 ms from the last pulse instant (R23). -/
def correctSpacing (d : Device) : Bool :=
  match d.tb.lastPulse with
  | none => false
  | some p => decide (Config.spacingLow ≤ d.tb.clock - p) && decide (d.tb.clock - p ≤ Config.spacingHigh)

/-- A reference pulse at the present instant (R23 to R26). -/
def pulseTaken (d : Device) : Device :=
  let correct := correctSpacing d
  let d := { d with tb := { d.tb with lastPulse := some d.tb.clock } }
  match d.tb.ref with
  | .absent | .holdover => setReference .relocking 0 d
  | .locked => makeBoundary d.tb.clock d
  | .relocking =>
    if d.tb.spaced.val < 3 then
      if correct then setReference .relocking (d.tb.spaced + 1) d else setReference .relocking 0 d
    else if correct then makeBoundary d.tb.clock (setReferenceLost false (setReference .locked 0 d))
    else
      let d := setReference .relocking 0 d
      if Config.secondMs ≤ d.tb.elapsed then makeBoundary d.tb.clock d else d

/-- The reference is watched for loss (R24, R25, R26). -/
def watched (d : Device) : Bool :=
  match d.tb.ref with
  | .locked | .relocking => true
  | .absent | .holdover => false

/-- REFERENCE_LOSS (R24 to R27): 1,200 ms after the last pulse instant, at its own instant; a boundary there where the next
pulse was to make it. -/
def referenceLoss (d : Device) : Device :=
  match d.tb.lastPulse with
  | none => d
  | some p =>
    if watched d then
      let instant := p + Config.lossMs
      let pulsesMake := !oscillates d
      let d := advanceTo instant d
      let d := setReferenceLost true (setReference .holdover 0 d)
      if pulsesMake then makeBoundary instant d else d
    else d

/-! ### A pulse finds the Time Base as it stands at its instant -/

/-- How many oscillator boundaries fall up to an instant, that instant included (R21). -/
def secondsUntil (limit : Nat) (d : Device) : Nat :=
  if oscillates d then (limit - (d.tb.clock - d.tb.elapsed)) / Config.secondMs else 0

/-- So many boundaries of the oscillator, one after another (R21). -/
def oscillatorBoundaries : Nat → Device → Device
  | 0, d => d
  | n + 1, d => oscillatorBoundaries n (oscillatorBoundary d)

/-- The boundaries of the oscillator that fall up to an instant are made. -/
def runSeconds (limit : Nat) (d : Device) : Device := oscillatorBoundaries (secondsUntil limit d) d

/-- The instant of the loss, where it falls before a given instant (R24 to R26). -/
def lossBefore (limit : Nat) (d : Device) : Option Nat :=
  if watched d then (d.tb.lastPulse.map (· + Config.lossMs)).filter fun e => decide (e < limit) else none

/-- Every boundary of the oscillator up to an instant, and the loss that falls before it, are taken in the order of their
instants. -/
def runTimeBase (limit : Nat) (d : Device) : Device :=
  match lossBefore limit d with
  | some e => runSeconds limit (referenceLoss (runSeconds e d))
  | none => runSeconds limit d

/-- REFERENCE_PULSE: the pulse arrives `delay` ms after the present instant (log entry 5). What the Time Base has due before
that instant is taken first: a pulse cannot pass the loss or a boundary (R21, R24 to R26). So is a boundary due at that very
instant: the second that a third spaced pulse finds in progress is below 1,000 ms (R25). A loss that falls at the same instant
is taken after the pulse, an order R24 to R26 leave open (log entry 5). -/
def referencePulse (delay : Nat) (d : Device) : Device :=
  let instant := d.tb.clock + delay
  pulseTaken (advanceTo instant (runTimeBase instant d))

def execBoundary (s : State) : Host.Outcome State Fault Refusal := onDevice oscillatorBoundary s

def execReferencePulse (delay : Nat) (s : State) : Host.Outcome State Fault Refusal := onDevice (referencePulse delay) s

def execReferenceLoss (s : State) : Host.Outcome State Fault Refusal := onDevice referenceLoss s

/-! ### TIME_SET (R31) -/

/-- A booking that is in use refuses TIME_SET (R31 check 2). -/
def inUseForTime (b : Booking) : Bool :=
  match b.state with
  | .armed | .live | .overrun | .settling => true
  | .pending | .unbilled => false

/-- A PENDING booking whose arm time is at or before the new value or now refuses TIME_SET (R31 check 3). -/
def armsBy (d : Device) (v : Nat) (b : Booking) : Bool :=
  decide (b.state = .pending) && (decide (intervalFirst b ≤ v) || decide (intervalFirst b ≤ now d))

def timeSet (_p : PortId) (m : Memory) (d : Device) : Device × Reply :=
  let v := param m 0 4
  if Config.timeSetLimit ≤ v then (d, failReply .badParameter (some 0))
  else if someBooking inUseForTime d then (d, failReply .wrongState (some 0))
  else if someBooking (armsBy d v) d then (d, failReply .wrongState (some 0))
  else
    ({ d with tb := { d.tb with time := BitVec.ofNat 32 v, valid := true } }, doneReply [u4 v, u4 (now d)])

def execTimeSet (s : State) : Host.Outcome State Fault Refusal := onDevice (serve .timeSet timeSet) s

end Sys2Proof.Machine
end

