-- ==== Sys2Proof/Machine/Settings.lean ====
section
/-! DEFINITION. How every numeric setting is brought into its range and onto its step before it is stored (R9), the reset of
the power filter runs (R135), and the commands PROFILE_WRITE, CAL_WRITE and TARIFF_WRITE. -/

namespace Sys2Proof.Machine

/-! ### Clamping (R9) -/

def clampNat (low high v : Nat) : Nat := max low (min high v)
def clampInt (low high v : Int) : Int := max low (min high v)

/-- A calibration offset: clamped to -75 to +75 and then rounded toward zero to a multiple of 5. -/
def clampOffset (v : Int) : Int := (clampInt (-75) 75 v).tdiv 5 * 5

def clampLevel (v : Int) : Int := clampInt (-400) 100 v

/-- A hold-off: clamped to 1,000 and then rounded down to a multiple of 10. -/
def clampHoldOff (v : Nat) : Nat := min 1000 v / 10 * 10

/-- A WTR: at most 900, and 1-29 becomes 30. -/
def clampWtr (v : Nat) : Nat := if v = 0 then 0 else clampNat 30 900 v

/-- A threshold profile from its five raw settings. -/
def clampProfile (warnLow alarmLow alarmHigh : Int) (h f : Nat) : Profile :=
  ⟨clampLevel warnLow, clampLevel alarmLow, clampLevel alarmHigh, clampNat 5 30 h, clampNat 1 8 f⟩

/-- A tariff class from its six raw settings. -/
def clampTariff (rb fo co cd mmin us : Nat) : Tariff :=
  ⟨clampNat 0 65535 rb, clampNat 100 400 fo, clampNat 0 300 co, clampNat 0 100 cd, clampNat 0 240 mmin, clampNat 0 3600 us⟩

/-- The DEFAULTS section from its seven raw settings. -/
def clampDefaults (holdOff wtr guard limit exponent timeout warning : Nat) : Defaults :=
  ⟨clampHoldOff holdOff, clampWtr wtr, clampNat 0 300 guard, clampNat 1 15 limit, clampNat 4 10 exponent,
   clampNat 5 250 timeout, clampNat 0 600 warning⟩

/-- Which field of a profile breaks the order alarm_low < warn_low < alarm_high, on the stored values (R4): 0 for warn_low,
2 for alarm_high; none when the order holds. -/
def profileFault (p : Profile) : Option Nat :=
  if p.warnLow ≤ p.alarmLow then some 0 else if p.alarmHigh ≤ p.warnLow then some 2 else none

/-! ### Filter runs (R135) -/

/-- The three filter runs of a line record become 0; the conditions are kept. -/
def resetRuns (x : Line) : Line :=
  { x with
    lowWarn := { x.lowWarn with run := 0 }
    lowAlarm := { x.lowAlarm with run := 0 }
    highAlarm := { x.highAlarm with run := 0 } }

/-- The filter runs of every trunk that satisfies `p` become 0. -/
def resetRunsOf (p : Trunk → Bool) (d : Device) : Device :=
  { d with lmn := { d.lmn with
      lines := Vector.ofFn fun t => if p t then resetRuns (d.lmn.lines.get t) else d.lmn.lines.get t } }

/-! ### PROFILE_WRITE (R4) -/

def profileFields (p : Profile) : List Field := [s2 p.warnLow, s2 p.alarmLow, s2 p.alarmHigh, u1 p.h, u1 p.f]

/-- The LEVELS form: form byte, profile number, five settings. A form that is neither LEVELS nor SELECT is refused here
(log entry 15). The profile number is judged before the order of the levels (log entry 41), and named when it is above 3 (log
entry 52). -/
def profileLevels (m : Memory) (d : Device) : Device × Reply :=
  if param m 0 1 ≠ 0 then (d, failReply .badParameter (some 0))
  else
    match asFin 4 (param m 1 1) with
    | none => (d, failReply .badParameter (some 1))
    | some n =>
      let p := clampProfile (signed16 (param m 2 2)) (signed16 (param m 4 2)) (signed16 (param m 6 2))
        (param m 8 1) (param m 9 1)
      match profileFault p with
      | some i => (d, failReply .badParameter (some (2 + 2 * i)))
      | none =>
        let img := d.csc.image
        let d := setUnsaved (setImage { img with profiles := img.profiles.set n.val p n.isLt } d)
        (resetRunsOf (fun t => decide (img.choices.get t = n)) d, doneReply (profileFields p))

/-- The SELECT form: form byte, trunk, profile number, the trunk judged first (log entry 41); each is named when it is above
its range (log entry 52). -/
def profileSelect (m : Memory) (d : Device) : Device × Reply :=
  match asFin 16 (param m 1 1) with
  | none => (d, failReply .badParameter (some 1))
  | some t =>
    match asFin 4 (param m 2 1) with
    | none => (d, failReply .badParameter (some 2))
    | some n =>
      let img := d.csc.image
      let d := setUnsaved (setImage { img with choices := img.choices.set t.val n t.isLt } d)
      (resetRunsOf (fun u => decide (u = t)) d, doneReply [u1 n.val])

/-- The command engine's next PROFILE_WRITE is in the SELECT form. -/
def selectForm (d : Device) : Bool :=
  match chosenPort d with
  | none => false
  | some p => decide (param (window d p).params 0 1 = 1)

/-- PROFILE_WRITE in the LEVELS form. -/
def execProfileWriteLevels (s : State) : Host.Outcome State Fault Refusal :=
  onDevice (fun d => if selectForm d then d else serve .profileWrite (fun _ m d => profileLevels m d) d) s

/-- PROFILE_WRITE in the SELECT form. -/
def execProfileWriteSelect (s : State) : Host.Outcome State Fault Refusal :=
  onDevice (fun d => if selectForm d then serve .profileWrite (fun _ m d => profileSelect m d) d else d) s

/-! ### CAL_WRITE (R5) -/

/-- CAL_WRITE (R5); a trunk above 15 is named as the offending field (log entry 52). -/
def calWrite (_p : PortId) (m : Memory) (d : Device) : Device × Reply :=
  match asFin 16 (param m 0 1) with
  | none => (d, failReply .badParameter (some 0))
  | some t =>
    let v := clampOffset (signed16 (param m 2 2))
    let img := d.csc.image
    let d := setUnsaved (setImage { img with calibration := img.calibration.set t.val v t.isLt } d)
    (resetRunsOf (fun u => decide (u = t)) d, doneReply [s2 v])

def execCalWrite (s : State) : Host.Outcome State Fault Refusal := onDevice (serve .calWrite calWrite) s

/-! ### TARIFF_WRITE (R175) -/

def tariffFields (x : Tariff) : List Field := [u2 x.rb, u2 x.fo, u2 x.co, u1 x.cd, u1 x.mmin, u2 x.us]

def tariffWrite (_p : PortId) (m : Memory) (d : Device) : Device × Reply :=
  match asFin 16 (param m 0 1) with
  | none => (d, failReply .badParameter (some 0))
  | some n =>
    let x := clampTariff (param m 2 2) (param m 4 2) (param m 6 2) (param m 8 1) (param m 9 1) (param m 10 2)
    let img := d.csc.image
    (setUnsaved (setImage { img with tariffs := img.tariffs.set n.val x n.isLt } d), doneReply (tariffFields x))

def execTariffWrite (s : State) : Host.Outcome State Fault Refusal := onDevice (serve .tariffWrite tariffWrite) s

end Sys2Proof.Machine
end

