-- ==== Sys2Proof/Machine/Charging.lean ====
section
/-! DEFINITION. Charging and the billing queue (10): the arithmetic of a charge, the placement of records, BILL_QUEUE_HIGH,
BILL_FETCH and BILL_RELEASE. -/

namespace Sys2Proof.Machine

/-! ### The arithmetic (R177 to R181) -/

/-- A quotient rounded up. -/
def ceilDiv (a b : Nat) : Nat := (a + b - 1) / b

/-- Gross (R178): booked minutes at the base rate, and overrun minutes at the overrun factor, rounded up. -/
def grossAmount (x : Tariff) (sb so : Nat) : Nat := ceilDiv sb 60 * x.rb + ceilDiv (ceilDiv so 60 * x.rb * x.fo) 100

/-- Credit (R179): the two credits, each rounded down, capped at the gross. -/
def creditAmount (x : Tariff) (gross su sd : Nat) : Nat := min (su * x.rb * x.co / 6000 + sd * x.rb * x.cd / 6000) gross

def noMeters : Meters := ⟨0, 0, 0, 0, 0, 0, 0, 0⟩

/-- The normal form of a charge (R177 to R180). -/
def normalCharge (b : Booking) (r : RecipientMeter) : Charge :=
  let gross := grossAmount b.tariff (b.plannedEnd - b.start) r.meters.overrun
  let credit := creditAmount b.tariff gross r.meters.unavailable (r.meters.errored + r.meters.severe)
  { gross := gross, credit := credit, net := gross - credit, lateCancel := false, endedEarly := b.endedEarly
    neverConnected := !r.connectedSeen, slaBreach := decide (b.tariff.us < r.meters.unavailable), meters := r.meters }

/-- The late-cancel form of a charge (R181). -/
def lateCharge (b : Booking) : Charge :=
  { gross := b.tariff.mmin * b.tariff.rb, credit := 0, net := b.tariff.mmin * b.tariff.rb, lateCancel := true
    endedEarly := false, neverConnected := true, slaBreach := false, meters := noMeters }

/-! ### The queue (R182 to R185) -/

/-- A billing record, formed at the moment it is placed (R182). -/
def billRecord (d : Device) (i : SlotId) (b : Booking) (serial : Word) (p : HandoffPort) (c : Charge) : BillRecord :=
  { serial := serial, restart := d.csc.restart, matchRef := b.matchRef, handle := handleAt d i
    tariffClass := b.tariffClass, port := p, account := (d.csc.image.portMap.get p).account
    start := b.start, plannedEnd := b.plannedEnd, closeTime := b.closeTime.getD 0, charge := c }

/-- The records of a booking in recipient order, each with the next serial (R184). -/
def billRecords (d : Device) (i : SlotId) (b : Booking) : Word → List (HandoffPort × Charge) → List BillRecord
  | _, [] => []
  | serial, (p, c) :: rest => billRecord d i b serial p c :: billRecords d i b (serial + 1) rest

/-- BILL_QUEUE_HIGH follows the occupancy (R185). -/
def refreshQueueHigh (d : Device) : Device :=
  setDeviceLevel srcBillQueueHigh (decide (Config.queueHigh ≤ d.bq.queue.length)) d

/-- A slot returns to FREE (R34, R68): the generation rises, the entry and the metering record are gone. -/
def freeSlot (i : SlotId) (d : Device) : Device :=
  setMeter i none (updSlot i (fun s => ⟨s.generation + 1, none⟩) d)

/-- The placement of one booking's records (R184). -/
def placeBooking (i : SlotId) (b : Booking) (d : Device) : Device :=
  let records := billRecords d i b d.bq.nextSerial (b.recipients.zip b.charges)
  let d := { d with bq := ⟨d.bq.queue ++ records, d.bq.nextSerial + BitVec.ofNat 32 records.length⟩ }
  let d := { d with bkc := { d.bkc with unbilled := d.bkc.unbilled.filter fun j => decide (j ≠ i) } }
  refreshQueueHigh (notifyAll billingNotice (freeSlot i d))

/-- Placement runs through the unbilled list while its head fits (R184). -/
def placeList : List SlotId → Device → Device
  | [], d => d
  | i :: rest, d =>
    match bookingAt d i with
    | none => d
    | some b =>
      if d.bq.queue.length + b.recipients.length ≤ Config.queueCapacity then placeList rest (placeBooking i b d) else d

def placeHead (d : Device) : Device := placeList d.bkc.unbilled d

/-- A booking becomes UNBILLED with its charges and joins the tail of the unbilled list; one that joins an empty list is
judged for placement (R67, R176, R184). -/
def joinUnbilled (i : SlotId) (charges : List Charge) (d : Device) : Device :=
  let first := d.bkc.unbilled.isEmpty
  let d := updBooking i (fun b => { b with state := .unbilled, charges := charges }) d
  let d := { d with bkc := { d.bkc with unbilled := d.bkc.unbilled ++ [i] } }
  if first then placeHead d else d

/-! ### BILL_FETCH and BILL_RELEASE (R186, R187) -/

/-- The flag byte of a billing record (R205). -/
def chargeFlags (c : Charge) : Nat :=
  (if c.lateCancel then 1 else 0) + (if c.endedEarly then 2 else 0) + (if c.neverConnected then 4 else 0)
    + (if c.slaBreach then 8 else 0)

/-- The 64 bytes of a billing record (R205). -/
def billFields (r : BillRecord) : List Field :=
  [u4 r.serial.toNat, u2 r.restart.toNat, u1 r.tariffClass.val, u1 (chargeFlags r.charge), u4 r.matchRef.toNat,
   u2 (handleCode r.handle), u2 r.account.toNat, u1 r.port.val, u1 0, u2 (r.plannedEnd - r.start),
   u4 r.start, u4 r.plannedEnd, u4 r.closeTime,
   u2 r.charge.meters.metered, u2 r.charge.meters.overrun, u2 r.charge.meters.clean, u2 r.charge.meters.errored,
   u2 r.charge.meters.severe, u2 r.charge.meters.unavailable, u2 r.charge.meters.source, u2 r.charge.meters.unmonitored,
   u4 r.charge.gross, u4 r.charge.credit, u4 r.charge.net, u4 0]

def billFetch (_p : PortId) (m : Memory) (d : Device) : Device × Reply :=
  let n := param m 0 1
  if n = 0 ∨ 8 < n then (d, failReply .badParameter (some 0))
  else if d.bq.queue = [] then (d, failReply .queueEmpty none)
  else
    let records := d.bq.queue.take n
    (d, doneReply ([u1 records.length, u2 d.bq.queue.length, u4 d.bq.nextSerial.toNat] ++ records.flatMap billFields))

/-- The serial of the head record. -/
def headSerial (d : Device) : Option Word := d.bq.queue.head?.map fun r => r.serial

/-- How many records stand from the head up to the one with a serial, when that serial is held (R183). -/
def heldCount (d : Device) (serial : Word) : Option Nat :=
  match headSerial d with
  | none => none
  | some h => if (serial - h).toNat < d.bq.queue.length then some ((serial - h).toNat + 1) else none

/-- BILL_RELEASE (R187): the occupancy and the head's serial in the response are those after step 1, before step 3 places
records (for the serial that is log entry 66). -/
def billRelease (_p : PortId) (m : Memory) (d : Device) : Device × Reply :=
  match heldCount d (BitVec.ofNat 32 (param m 0 4)) with
  | none => (d, failReply .notInQueue (some 0))
  | some n =>
    let d := { d with bq := { d.bq with queue := d.bq.queue.drop n } }
    let reply := doneReply ([u2 n, u2 d.bq.queue.length] ++ optField 4 ((headSerial d).map fun x => x.toNat))
    (placeHead (refreshQueueHigh d), reply)

def execBillFetch (s : State) : Host.Outcome State Fault Refusal := onDevice (serve .billFetch billFetch) s

def execBillRelease (s : State) : Host.Outcome State Fault Refusal := onDevice (serve .billRelease billRelease) s

end Sys2Proof.Machine
end

