-- ==== Sys2Proof/Machine/Metering.lean ====
section
/-! DEFINITION. Service metering (09): snapshots, the grading of recipients, availability and pending runs, settlement, the
SVM's boundary, and METER_READ. -/

namespace Sys2Proof.Machine

/-! ### Grading (R166 to R169) -/

def freshRecipient : RecipientMeter := ⟨.available, 0, 0, 0, 0, noMeters, false, none⟩

/-- The metering record created at arming (R160). -/
def freshRecord (b : Booking) (t : Word) : MeterRecord := ⟨none, false, [], t, b.recipients.map fun _ => freshRecipient⟩

/-- The record of a booking cancelled late: no snapshots, every meter 0 and connected-seen clear (R73, R171). The metered node
stays (R160). -/
def unmetered (b : Booking) (m : MeterRecord) : MeterRecord :=
  { m with queue := [], recipients := b.recipients.map fun _ => freshRecipient }

/-- The grade of a recipient's second (R166). -/
def recipientGrade (x : Snapshot) (v : RecipientView) : Grade :=
  if !v.connected || x.lane.isNone || v.txFault then .severe
  else
    match (x.graded.map fun g => g.grade).getD .severe with
    | .clean => if x.switchHit then .errored else .clean
    | g => g

/-- Seconds booked by their own grade. -/
def bookClean (n : Nat) (m : Meters) : Meters := { m with clean := m.clean + n }
def bookErrored (n : Nat) (m : Meters) : Meters := { m with errored := m.errored + n }
def bookSevere (n : Nat) (m : Meters) : Meters := { m with severe := m.severe + n }
def bookUnavailable (n : Nat) (m : Meters) : Meters := { m with unavailable := m.unavailable + n }
def bookSource (n : Nat) (m : Meters) : Meters := { m with source := m.source + n }

/-- A second that is not SEVERE is booked by its own grade. -/
def bookGrade (g : Grade) (m : Meters) : Meters :=
  match g with
  | .clean => bookClean 1 m
  | .errored => bookErrored 1 m
  | .source => bookSource 1 m
  | .severe => bookSevere 1 m

/-- The pending run empties. -/
def emptyRun (r : RecipientMeter) : RecipientMeter := { r with run := 0, runClean := 0, runErrored := 0, runSource := 0 }

/-- AVAILABLE takes a graded second (R168). -/
def takeAvailable (g : Grade) (r : RecipientMeter) : RecipientMeter :=
  match g with
  | .severe =>
    if r.run + 1 = 10 then
      { emptyRun r with availability := .unavailable, meters := bookUnavailable 10 r.meters }
    else { r with run := r.run + 1 }
  | .clean | .errored | .source => { emptyRun r with meters := bookGrade g (bookSevere r.run r.meters) }

/-- The recovery run takes a second that is not SEVERE. -/
def extendRun (g : Grade) (r : RecipientMeter) : RecipientMeter :=
  match g with
  | .clean => { r with run := r.run + 1, runClean := r.runClean + 1 }
  | .errored => { r with run := r.run + 1, runErrored := r.runErrored + 1 }
  | .source => { r with run := r.run + 1, runSource := r.runSource + 1 }
  | .severe => r

/-- UNAVAILABLE takes a graded second (R169). -/
def takeUnavailable (g : Grade) (r : RecipientMeter) : RecipientMeter :=
  match g with
  | .severe => { emptyRun r with meters := bookUnavailable (r.run + 1) r.meters }
  | .clean | .errored | .source =>
    let r := extendRun g r
    if r.run = 10 then
      { emptyRun r with
        availability := .available
        meters := bookSource r.runSource (bookErrored r.runErrored (bookClean r.runClean r.meters)) }
    else r

/-- A recipient takes a graded second by its availability. -/
def takeGrade (g : Grade) (r : RecipientMeter) : RecipientMeter :=
  match r.availability with
  | .available => takeAvailable g r
  | .unavailable => takeUnavailable g r

/-- A recipient's second is graded (R166, R167): metered, overrun and unmonitored rise, connected-seen is kept, and the
availability state takes the grade. -/
def gradeRecipient (plannedEnd : Nat) (x : Snapshot) (v : RecipientView) (r : RecipientMeter) : RecipientMeter :=
  let g := recipientGrade x v
  let unmonitored := x.lane.isSome && (x.graded.map fun y => y.unmonitored).getD false
  let m := r.meters
  let m := { m with
    metered := m.metered + 1
    overrun := m.overrun + (if plannedEnd ≤ x.second.toNat then 1 else 0)
    unmonitored := m.unmonitored + (if unmonitored then 1 else 0) }
  takeGrade g { r with
    meters := m, connectedSeen := r.connectedSeen || v.connected, last := some ⟨x.second, g, x.defect⟩ }

/-- The recipients of a snapshot are graded in list order (R165). -/
def gradeAll (plannedEnd : Nat) (x : Snapshot) : List RecipientView → List RecipientMeter → List RecipientMeter
  | v :: vs, r :: rs => gradeRecipient plannedEnd x v r :: gradeAll plannedEnd x vs rs
  | [], rs => rs
  | _ :: _, [] => []

/-- A snapshot is ready (R164). -/
def ready (x : Snapshot) : Bool := x.lane.isNone || x.graded.isSome

/-- The ready snapshots at the front of a queue are applied, oldest first, and removed (R165). -/
def applyQueue (plannedEnd : Nat) : List Snapshot → List RecipientMeter → List Snapshot × List RecipientMeter
  | [], rs => ([], rs)
  | x :: rest, rs => if ready x then applyQueue plannedEnd rest (gradeAll plannedEnd x x.views rs) else (x :: rest, rs)

/-- The ready snapshots of a record are applied. -/
def applyReady (plannedEnd : Nat) (m : MeterRecord) : MeterRecord :=
  let out := applyQueue plannedEnd m.queue m.recipients
  { m with queue := out.1, recipients := out.2 }

/-! ### Settlement (R170) -/

/-- A recipient's pending run is resolved at settlement. -/
def resolveRun (r : RecipientMeter) : RecipientMeter :=
  match r.availability with
  | .available => { emptyRun r with meters := bookSevere r.run r.meters }
  | .unavailable => { emptyRun r with meters := bookUnavailable r.run r.meters }

/-- No snapshot remains to be taken and the queue is empty (R170). -/
def settlementComplete (b : Booking) (m : MeterRecord) : Bool :=
  match b.closeTime with
  | none => false
  | some c => (decide (c ≤ b.start) || decide (c ≤ m.taken.toNat)) && m.queue.isEmpty

/-- The settlement of a SETTLING booking, when it is complete (R67, R170, R176). -/
def settle (i : SlotId) (d : Device) : Device :=
  match bookingAt d i, d.svm.records.get i with
  | some b, some m =>
    if b.state = .settling ∧ settlementComplete b m = true then
      let m := { m with recipients := m.recipients.map resolveRun }
      joinUnbilled i (m.recipients.map (normalCharge b)) (setMeter i (some m) d)
    else d
  | _, _ => d

/-- The ready snapshots of every booking are applied, and then settlement is evaluated, each in slot order (R165, R170). The
event that makes the oldest snapshot ready applies it, so none stands ready at the head of a queue (log entry 55). -/
def applyAndSettle (d : Device) : Device :=
  let d := setMeters d fun i m =>
    match bookingAt d i with
    | some b => applyReady b.plannedEnd m
    | none => m
  (List.finRange 256).foldl (fun d i => settle i d) d

/-! ### Graded trunk-seconds (R164) -/

/-- A snapshot that waits for a graded trunk-second takes its lane's grade and the unmonitored mark. -/
def gradeSnapshot (t : Trunk) (c : ClosedSecond) (x : Snapshot) : Snapshot :=
  match x.lane with
  | none => x
  | some l =>
    if trunkOf l = t ∧ x.second = c.second ∧ x.graded = none then
      { x with graded := some ⟨c.grades.get (laneIndex l), c.unmonitored⟩ }
    else x

/-- A graded trunk-second is handed to the SVM: it makes ready every snapshot that waits for it. -/
def handSecond (t : Trunk) (c : ClosedSecond) (d : Device) : Device :=
  setMeters d fun _ m => { m with queue := m.queue.map (gradeSnapshot t c) }

/-! ### The SVM's boundary (R161, R162, R163) -/

/-- A booking is LIVE or OVERRUN during second n (R61). -/
def meteredDuring (b : Booking) (n : Nat) : Bool :=
  decide (b.start ≤ n) && (match b.closeTime with
    | none => true
    | some c => decide (n < c))

/-- The delivered lane: the confirmed source of the metered node when it is a lane (R163). -/
def deliveredLane (d : Device) (m : MeterRecord) : Option Lane :=
  m.node.bind fun n =>
    match (node d n).confirmed with
    | .lane l => some l
    | .none | .unknown => none

/-- The live defect of a lane (R128, R163). -/
def liveDefect (d : Device) (l : Lane) : LiveDefect :=
  ⟨(line d (trunkOf l)).los, hasLane (line d (trunkOf l)).frameLoss (laneIndex l)⟩

/-- The grade of a lane in its trunk's last closed second, when that second is `n` (R164). -/
def closedGrade (d : Device) (n : Word) (l : Lane) : Option LaneGrade :=
  ((line d (trunkOf l)).lastClosed.filter fun c => decide (c.second = n)).map fun c =>
    ⟨c.grades.get (laneIndex l), c.unmonitored⟩

/-- What a snapshot records of a recipient (R163). -/
def recipientView (d : Device) (m : MeterRecord) (p : HandoffPort) : RecipientView :=
  ⟨(m.node.map fun n => decide ((port d p).confirmed = .node n)).getD false, (d.lmn.transmitters.get p).txFault⟩

/-- The snapshot of second n (R163, R164). -/
def snapshot (d : Device) (n : Word) (b : Booking) (m : MeterRecord) : Snapshot :=
  let l := deliveredLane d m
  { second := n, lane := l, switchHit := m.switchMark, views := b.recipients.map (recipientView d m)
    defect := l.map (liveDefect d), graded := l.bind (closedGrade d n) }

/-- One record takes the boundary that ends second n and begins second t (R162). A booking still ARMED although its start is
at or before n, because the BKC takes the boundary at its start later, receives a snapshot (log entry 48); a late cancel discards it
(`unmetered`). -/
def recordBoundary (d : Device) (t : Word) (b : Option Booking) (m : MeterRecord) : MeterRecord :=
  let n := t - 1
  let queue :=
    match b with
    | none => m.queue
    | some b =>
      if b.state ≠ .pending ∧ b.state ≠ .unbilled ∧ meteredDuring b n.toNat = true then m.queue ++ [snapshot d n b m]
      else m.queue
  { m with queue := queue, taken := t, switchMark := false }

/-- The SVM takes a boundary (R162). -/
def svmBoundary (t : Word) (d : Device) : Device :=
  applyAndSettle (setMeters d fun i m => recordBoundary d t (bookingAt d i) m)

/-- The SVM takes the oldest boundary handed to it; where none is handed this event does not happen (log entry 4). -/
def svmBoundaryTaken (d : Device) : Device :=
  match d.owed.svm with
  | [] => d
  | t :: rest => svmBoundary t { d with owed := { d.owed with svm := rest } }

def execSvmBoundary (s : State) : Host.Outcome State Fault Refusal := onDevice svmBoundaryTaken s

/-! ### METER_READ (R173) -/

/-- The live defect of a delivered lane, LOS and frame loss behind one presence byte (log entry 58). -/
def defectFields (x : Option LiveDefect) : List Field := optGroup [1, 1] (x.map fun y => [flag y.los, flag y.frameLoss])

/-- A snapshot as METER_READ shows it (R173): the live defect behind one presence byte, and the lane grade with the unmonitored
mark behind another, absent also where the snapshot is ready without a delivered lane (log entry 58). -/
def snapshotFields (x : Snapshot) : List Field :=
  [u4 x.second.toNat, u1 (laneOrNoneCode x.lane), flag x.switchHit] ++ defectFields x.defect
    ++ listField (x.views.flatMap fun v => [flag v.connected, flag v.txFault]) x.views.length
    ++ optGroup [1, 1] (x.graded.map fun g => [u1 (gradeCode g.grade), flag g.unmonitored])

/-- A recipient as METER_READ shows it (R173), with the live defect of its last graded second (R163). The grade counts of a
severe run are zeros without a presence byte (log entry 49). -/
def recipientFields (p : HandoffPort) (r : RecipientMeter) : List Field :=
  [u1 p.val, u1 (availabilityCode r.availability), u1 r.run, u1 r.runClean, u1 r.runErrored, u1 r.runSource,
   u2 r.meters.clean, u2 r.meters.errored, u2 r.meters.severe, u2 r.meters.unavailable, u2 r.meters.source,
   u2 r.meters.metered, u2 r.meters.overrun, u2 r.meters.unmonitored, flag r.connectedSeen]
    ++ optGroup [1, 4, 1, 1, 1] (r.last.map fun x => [u1 (gradeCode x.grade), u4 x.second.toNat] ++ defectFields x.defect)

def meterRead (_p : PortId) (m : Memory) (d : Device) : Device × Reply :=
  let h := handleParam m 0
  match bookingOf d h with
  | none => (d, failReply .noSuchBooking (some 0))
  | some b =>
    match d.svm.records.get h.slot with
    | none => (d, failReply .wrongState (some 0))
    | some r =>
      if b.state = .pending then (d, failReply .wrongState (some 0))
      else
        (d, doneReply ([u2 (handleCode h), u1 (bookingStateCode (some b.state))]
          ++ optField 1 (r.node.map fun n => n.val)
          ++ listField (r.queue.flatMap snapshotFields) r.queue.length
          ++ listField ((b.recipients.zip r.recipients).flatMap fun x => recipientFields x.1 x.2) b.recipients.length))

def execMeterRead (s : State) : Host.Outcome State Fault Refusal := onDevice (serve .meterRead meterRead) s

end Sys2Proof.Machine
end

