-- ==== Sys2Proof/Machine/Line.lean ====
section
/-! DEFINITION. Line monitoring (07): the inbound frames of the Line Status Link, the flap counter, the filtered power
conditions, and the closing of seconds. -/

namespace Sys2Proof.Machine

/-! ### ALARM (R127 to R131) -/

/-- A trunk's LOS has an onset: a flap is counted, to 15 at most, and the clean interval starts again (R129). -/
def countFlap (d : Device) (x : Line) : Line := restartClean d (setFlap d (min 15 (x.flapCounter + 1)) x)

/-- The line record takes an ALARM frame (R127, R129, R131). -/
def takeAlarm (d : Device) (los : Bool) (frameLoss upstream : LaneSet) (x : Line) : Line :=
  let x' := { x with alarmSeen := true, los := los, frameLoss := frameLoss, upstream := upstream }
  if los && !x.los then countFlap d x' else x'

def alarmTaken (t : Trunk) (los : Bool) (frameLoss upstream : LaneSet) (d : Device) : Device :=
  handTrunks [t] (updLine t (takeAlarm d los frameLoss upstream) d)

/-! ### The clean interval (R130, R131) -/

/-- A clean interval ends: one flap is forgotten and the next interval starts. -/
def forgetFlap (d : Device) (x : Line) : Line := restartClean d (setFlap d (x.flapCounter - 1) x)

/-- The clean-interval timer of a trunk expires at its own instant; a timer that does not run does not expire. -/
def cleanIntervalExpired (t : Trunk) (d : Device) : Device :=
  match (line d t).cleanTimer with
  | none => d
  | some e =>
    let d := advanceTo e d
    handTrunks [t] (updLine t (forgetFlap d) d)

/-! ### POWER (R132 to R134) -/

/-- A report counts towards the change of a condition: its onset while absent, its end while present (R133). -/
def counts (f : Filter) (onset ending : Bool) : Bool := if f.present then ending else onset

/-- One filter takes one valid report (R134); `n` is the profile's filter count. -/
def filterTakes (n : Nat) (counting : Bool) (f : Filter) : Filter :=
  if counting then (if n ≤ f.run + 1 then ⟨!f.present, 0⟩ else ⟨f.present, f.run + 1⟩) else ⟨f.present, 0⟩

/-- The line record takes a valid POWER report (R132 to R134). -/
def takePower (d : Device) (t : Trunk) (raw : Int) (x : Line) : Line :=
  let sum := raw + d.csc.image.calibration.get t
  let v := clampLevel sum
  let p := d.csc.image.profiles.get (d.csc.image.choices.get t)
  { x with
    raw := some raw
    calibrated := some v
    saturated := decide (v ≠ sum)
    lowWarn := filterTakes p.f
      (counts x.lowWarn (decide (v ≤ p.warnLow)) (decide (clampLevel (p.warnLow + p.h) ≤ v))) x.lowWarn
    lowAlarm := filterTakes p.f
      (counts x.lowAlarm (decide (v ≤ p.alarmLow)) (decide (clampLevel (p.alarmLow + p.h) ≤ v))) x.lowAlarm
    highAlarm := filterTakes p.f
      (counts x.highAlarm (decide (p.alarmHigh ≤ v)) (decide (v ≤ clampLevel (p.alarmHigh - p.h)))) x.highAlarm }

def powerTaken (t : Trunk) (raw : Int) (valid : Bool) (d : Device) : Device :=
  if valid then handTrunks [t] (updLine t (takePower d t raw) d) else d

/-! ### SECOND (R137, R139, R140) -/

/-- The grade of a lane of a reported second (R139); a count above 8,000 is taken as 8,000 (R126). -/
def reportGrade (r : LaneReport) : Grade :=
  let errored := min Config.maxErrored r.errored.toNat
  if r.defect = true ∨ Config.severeErrored ≤ errored then .severe
  else if r.upstream = true then .source
  else if 1 ≤ errored then .errored
  else .clean

/-- The grades of a second that closes without its report, from its end state (R138). -/
def missingGrades (a : Awaited) : Vector Grade 8 :=
  Vector.ofFn fun i => if a.los || hasLane a.frameLoss i then .severe else .clean

/-- A discarded SECOND frame (R137): the late-report count stays at 65,535. -/
def countLate (x : Line) : Line := { x with lateCount := min 65535 (x.lateCount + 1) }

/-- The second a SECOND frame with this label closes, if the frame is accepted (R137). -/
def acceptedSecond (label : Byte) (x : Line) : Option Awaited :=
  x.awaited.filter fun a => decide (a.second.extractLsb' 0 8 = label)

/-- A second closes as reported (R137, R140). -/
def closeReported (c : ClosedSecond) (x : Line) : Line :=
  { x with awaited := none, reportGap := false, lastClosed := some c }

def secondTaken (t : Trunk) (label : Byte) (lanes : Vector LaneReport 8) (d : Device) : Device :=
  match acceptedSecond label (line d t) with
  | none => updLine t countLate d
  | some a =>
    let c : ClosedSecond := ⟨a.second, lanes.map reportGrade, false⟩
    applyAndSettle (handSecond t c (handTrunks [t] (updLine t (closeReported c) d)))

/-! ### PORTSTAT (R143) -/

def portstatTaken (p : HandoffPort) (txFault farEndLink : Bool) (d : Device) : Device :=
  handPort p (updTransmitter p (fun _ => ⟨true, txFault, !farEndLink⟩) d)

/-! ### Receipt (R125, R126) -/

/-- A frame that passes the checks is taken. -/
def takeFrame (f : LslFrame) (d : Device) : Device :=
  match f with
  | .alarm t los fl up => alarmTaken t los fl up d
  | .second t label lanes => secondTaken t label lanes d
  | .power t raw valid => powerTaken t raw valid d
  | .portstat p tx far => portstatTaken p tx far d

/-- A frame is received: nothing before monitoring begins, a discard when it fails the checks (R125, R126). -/
def receiveFrame (f : Option LslFrame) (d : Device) : Device :=
  if d.lmn.monitoring then
    match f with
    | some f => takeFrame f d
    | none => latch deviceRecord srcLslFrameError d
  else d

/-- ALARM_FRAME (R127). -/
def execAlarmFrame (trunk : Byte) (los : Bool) (frameLoss upstream : LaneSet) (s : State) :
    Host.Outcome State Fault Refusal :=
  onDevice (receiveFrame ((asFin 16 trunk.toNat).map fun t => .alarm t los frameLoss upstream)) s

/-- SECOND_FRAME (R137). -/
def execSecondFrame (trunk label : Byte) (lanes : Vector LaneReport 8) (s : State) : Host.Outcome State Fault Refusal :=
  onDevice (receiveFrame ((asFin 16 trunk.toNat).map fun t => .second t label lanes)) s

/-- POWER_FRAME (R132). -/
def execPowerFrame (trunk : Byte) (raw : BitVec 16) (valid : Bool) (s : State) : Host.Outcome State Fault Refusal :=
  onDevice (receiveFrame ((asFin 16 trunk.toNat).map fun t => .power t raw.toInt valid)) s

/-- PORTSTAT_FRAME (R143). -/
def execPortstatFrame (port : Byte) (txFault farEndLink : Bool) (s : State) : Host.Outcome State Fault Refusal :=
  onDevice (receiveFrame ((asFin 32 port.toNat).map fun p => .portstat p txFault farEndLink)) s

/-- LSL_FRAME_DISCARD (R126): a unit as it arrives on the link. A unit that passes the checks is taken as the frame it is. -/
def execLslFrameDiscard (frame : List Byte) (s : State) : Host.Outcome State Fault Refusal :=
  onDevice (receiveFrame (lslFrame frame)) s

/-- CLEAN_INTERVAL_EXPIRY (R130). -/
def execCleanIntervalExpiry (trunk : Trunk) (s : State) : Host.Outcome State Fault Refusal :=
  onDevice (cleanIntervalExpired trunk) s

/-! ### The LMN's boundary (R136, R138) -/

/-- A second closes as missing (R138). -/
def closeMissing (a : Awaited) (x : Line) : Line :=
  { x with awaited := none, reportGap := true, lastClosed := some ⟨a.second, missingGrades a, true⟩ }

/-- A trunk's part of a boundary: its awaited second closes as missing, and the second in progress is awaited when it began
at a boundary taken while monitoring (R136). -/
def lineBoundary (opened : Bool) (n : Word) (x : Line) : Line :=
  let x := match x.awaited with
    | some a => closeMissing a x
    | none => x
  { x with awaited := if opened then some ⟨n, x.los, x.frameLoss⟩ else none }

/-- The seconds the boundary closed are handed to the SVM in trunk order (R140). -/
def handMissing (before : Lmn) (d : Device) (t : Trunk) : Device :=
  match (before.lines.get t).awaited with
  | some a => handSecond t ⟨a.second, missingGrades a, true⟩ d
  | none => d

/-- The LMN takes the boundary at t, which ends second t − 1 (R136). -/
def lmnBoundary (t : Word) (d : Device) : Device :=
  let before := d.lmn
  let d := { d with lmn := { d.lmn with
    opened := true, lines := d.lmn.lines.map (lineBoundary before.opened (t - 1)) } }
  let d := handTrunks (List.finRange 16) d
  applyAndSettle ((List.finRange 16).foldl (handMissing before) d)

/-- LMN_BOUNDARY: the oldest boundary handed to the LMN; where none is handed this event does not happen (log entry 4). -/
def lmnBoundaryTaken (d : Device) : Device :=
  match d.owed.lmn with
  | [] => d
  | t :: rest => lmnBoundary t { d with owed := { d.owed with lmn := rest } }

def execLmnBoundary (s : State) : Host.Outcome State Fault Refusal := onDevice lmnBoundaryTaken s

end Sys2Proof.Machine
end

