-- ==== Sys2Proof/Machine/Admission.lean ====
section
/-! DEFINITION. Booking admission (03): the seven checks of BOOK_SUBMIT, the reservation checks that BOOK_AMEND and
BOOK_EXTEND share with it, and the commands BOOK_SUBMIT and BOOK_AMEND. -/

namespace Sys2Proof.Machine

/-! ### Fields and refusals (R36, R37) -/

/-- The parameters of a booking, in the parameter order of R36. -/
inductive BookField where
  | venue | working | protection | count | recipient (i : Nat) | start | plannedEnd | lead | allowance | priority
  | tariffClass | holdOff | wtr
deriving DecidableEq, Repr

/-- The refusal of an admission check (R37): result code, field, conflicting handle. -/
structure Rejection where
  result : Result
  field  : Option BookField
  handle : Option Handle
deriving DecidableEq, Repr

/-- The parameters as they stand in the parameter area, before check 1. -/
structure RawBooking where
  matchRef    : Nat
  venue       : Nat
  workingCode : Nat
  workingLane : Nat
  protectCode : Nat
  protectLane : Nat
  count       : Nat
  recipients  : List Nat
  start       : Nat
  plannedEnd  : Nat
  lead        : Nat
  allowance   : Nat
  priority    : Nat
  tariffClass : Nat
  holdOffSet  : Nat
  holdOff     : Nat
  wtrSet      : Nat
  wtr         : Nat
deriving DecidableEq, Repr

/-! ### Check 1: parameters (R38) -/

/-- The trunks of a venue are those whose VENUE_MAP entry names it (R1). -/
def servesVenue (d : Device) (v : Nat) (t : Trunk) : Bool :=
  ((d.csc.image.venueMap.get t).map fun x => decide (x.val = v)).getD false

/-- A port is bookable (R2). -/
def bookable (d : Device) (p : Nat) : Bool :=
  match asFin 32 p with
  | none => false
  | some p => decide ((d.csc.image.portMap.get p).account ≠ 0#16) && (d.csc.image.portMap.get p).enabled

/-- The first recipient that is not a bookable port, or that appears a second time. -/
def badRecipient (d : Device) : Nat → List Nat → List Nat → Option Nat
  | _, _, [] => none
  | i, seen, p :: rest =>
    if bookable d p = false ∨ seen.contains p = true then some i else badRecipient d (i + 1) (p :: seen) rest

/-- Each field with the condition under which it fails (R38), in parameter order. -/
def parameterChecks (d : Device) (r : RawBooking) : List (BookField × Bool) :=
  let guard := d.csc.image.defaults.releaseGuard
  [(.venue, !(List.finRange 16).any (servesVenue d r.venue)),
   (.working, !(r.workingCode = 1 || (r.workingCode = 2 && decide (r.workingLane < 128)))),
   (.protection, !(r.protectCode = 0 || r.protectCode = 1 || (r.protectCode = 2 && decide (r.protectLane < 128)))),
   (.count, r.count = 0 || decide (8 < r.count)),
   (.recipient ((badRecipient d 0 [] r.recipients).getD 0), (badRecipient d 0 [] r.recipients).isSome),
   (.start, decide (r.start < r.lead)),
   (.plannedEnd, decide (r.plannedEnd < r.start + 60) || decide (r.start + 43200 < r.plannedEnd)
      || decide (Config.lastInstant < r.plannedEnd + r.allowance + guard)),
   (.lead, decide (r.lead < 10) || decide (900 < r.lead)),
   (.allowance, decide (7200 < r.allowance)),
   (.priority, decide (3 < r.priority)),
   (.tariffClass, decide (15 < r.tariffClass)),
   (.holdOff, decide (1 < r.holdOffSet) || (r.holdOffSet = 1 && (decide (1000 < r.holdOff) || r.holdOff % 10 ≠ 0))),
   (.wtr, decide (1 < r.wtrSet)
      || (r.wtrSet = 1 && ((decide (1 ≤ r.wtr) && decide (r.wtr ≤ 29)) || decide (900 < r.wtr))))]

/-- Check 1 (R38): the first field that fails. -/
def checkParameters (d : Device) (r : RawBooking) : Option Rejection :=
  ((parameterChecks d r).find? fun x => x.2).map fun x => ⟨.badParameter, some x.1, none⟩

/-! ### Check 2: time (R39) -/

def checkTime (d : Device) (start lead : Nat) : Option Rejection :=
  if d.tb.valid = false then some ⟨.timeNotSet, none, none⟩
  else if start - lead ≤ now d then some ⟨.tooSoon, some .start, none⟩
  else if now d + Config.startHorizon < start then some ⟨.badParameter, some .start, none⟩
  else none

/-! ### Check 3: free slot (R40) -/

/-- The lowest-numbered FREE slot. -/
def lowestFree (d : Device) : Option SlotId := (List.finRange 256).find? fun i => (bookingAt d i).isNone

/-! ### Checks 4 to 7: the reservation checks (R41 to R47, R52) -/

/-- The holding bookings, but for the one whose own reservation is left out (R35, R52). -/
def holders (d : Device) (own : Option SlotId) : List (SlotId × Booking) :=
  (bookings d).filter fun x => holds x.2 && decide (some x.1 ≠ own)

/-- Those of them whose reserved intervals overlap an interval (R35). -/
def overlapping (a b : Nat) (others : List (SlotId × Booking)) : List (SlotId × Booking) :=
  others.filter fun x => overlaps a b (intervalFirst x.2) (intervalEnd x.2)

/-- A trunk is NORMAL (R150). -/
def trunkNormal (d : Device) (t : Trunk) : Bool := decide ((d.fra.trunks.get t).service = .normal)

/-- The lowest-numbered overlapping booking that uses a lane (R41 condition 3). -/
def laneUser (os : List (SlotId × Booking)) (l : Lane) : Option SlotId :=
  (os.find? fun x => decide (x.2.working = l) || decide (x.2.protection = some l)).map fun x => x.1

/-- The first instants at which a count over an interval can rise (R44, R47). -/
def risingInstants (a b : Nat) (os : List (SlotId × Booking)) : List Nat :=
  a :: (os.map fun x => intervalFirst x.2).filter fun x => decide (a ≤ x) && decide (x < b)

/-- How many of the bookings have reserved intervals that contain an instant. -/
def countAt (os : List (SlotId × Booking)) (x : Nat) : Nat :=
  os.countP fun y => containsInstant (intervalFirst y.2) (intervalEnd y.2) x

/-- Check 4 (R41, R42). -/
def checkWorking (d : Device) (venue : Venue) (spec : LaneSpec) (os : List (SlotId × Booking)) : Except Rejection Lane :=
  match spec with
  | .explicit l =>
    if servesVenue d venue.val (trunkOf l) = false then .error ⟨.badParameter, some .working, none⟩
    else if trunkNormal d (trunkOf l) = false then .error ⟨.trunkQuarantined, some .working, none⟩
    else
      match laneUser os l with
      | some i => .error ⟨.laneConflict, some .working, some (handleAt d i)⟩
      | none => .ok l
  | .auto =>
    match (List.finRange 128).find? fun l =>
        servesVenue d venue.val (trunkOf l) && trunkNormal d (trunkOf l) && (laneUser os l).isNone with
    | some l => .ok l
    | none => .error ⟨.noFreeLane, some .working, none⟩
  | .none => .error ⟨.badParameter, some .working, none⟩

/-- The overlapping sharers of a protection lane (R44). -/
def sharers (os : List (SlotId × Booking)) (p : Lane) : List (SlotId × Booking) :=
  os.filter fun x => decide (x.2.protection = some p)

/-- The conditions (a) to (e) on a protection lane (R43). -/
def protectionFits (d : Device) (venue : Venue) (w p : Lane) (a b : Nat) (os : List (SlotId × Booking)) : Bool :=
  servesVenue d venue.val (trunkOf p) && decide (trunkOf p ≠ trunkOf w)
    && trunkNormal d (trunkOf p)
    && (os.all fun x => decide (x.2.working ≠ p))
    && ((risingInstants a b (sharers os p)).all fun x => decide (countAt (sharers os p) x < Config.maxSharers))
    && ((sharers os p).all fun x => decide (trunkOf x.2.working ≠ trunkOf w))

/-- Check 5 (R43, R45). -/
def checkProtection (d : Device) (venue : Venue) (spec : LaneSpec) (w : Lane) (a b : Nat) (os : List (SlotId × Booking)) :
    Except Rejection (Option Lane) :=
  match spec with
  | .none => .ok none
  | .explicit p =>
    if protectionFits d venue w p a b os then .ok (some p) else .error ⟨.protectionConflict, some .protection, none⟩
  | .auto =>
    match (List.finRange 128).find? fun p => protectionFits d venue w p a b os with
    | some p => .ok (some p)
    | none => .error ⟨.protectionConflict, some .protection, none⟩

/-- Check 6 (R46): the recipients in list order. -/
def checkPorts (d : Device) (os : List (SlotId × Booking)) : Nat → List HandoffPort → Option Rejection
  | _, [] => none
  | i, p :: rest =>
    match os.find? fun x => x.2.recipients.contains p with
    | some x => some ⟨.portConflict, some (.recipient i), some (handleAt d x.1)⟩
    | none => checkPorts d os (i + 1) rest

/-- Check 7 (R47). -/
def checkNodes (a b : Nat) (os : List (SlotId × Booking)) : Option Rejection :=
  if (risingInstants a b os).all fun x => decide (countAt os x < Config.nodeCount) then none
  else some ⟨.nodeLimit, some .start, none⟩

/-- The reservation checks of a booking over the interval from a to b; the lanes they find (R52). -/
def checkReservation (d : Device) (own : Option SlotId) (venue : Venue) (working protection : LaneSpec)
    (recipients : List HandoffPort) (a b : Nat) : Except Rejection (Lane × Option Lane) :=
  let os := overlapping a b (holders d own)
  match checkWorking d venue working os with
  | .error r => .error r
  | .ok w =>
    match checkProtection d venue protection w a b os with
    | .error r => .error r
    | .ok p =>
      match checkPorts d os 0 recipients with
      | some r => .error r
      | none =>
        match checkNodes a b os with
        | some r => .error r
        | none => .ok (w, p)

/-! ### The admitted booking (R48, R49) -/

/-- A lane specification from its code and lane, which check 1 has passed; NONE and AUTO ignore the lane byte (log
entry 43). -/
def laneSpecOf (code l : Nat) : LaneSpec :=
  if code = 0 then .none else if code = 1 then .auto else .explicit (Fin.ofNat 128 l)

/-- An optional setting from its presence byte, which check 1 has passed. -/
def optionalOf (presence v : Nat) : Option Nat := if presence = 1 then some v else none

/-- The recipients, which check 1 has passed. -/
def recipientsOf (ps : List Nat) : List HandoffPort := ps.map fun p => Fin.ofNat 32 p

/-- The entry of an admitted booking (R48, R49). -/
def admittedBooking (d : Device) (port : PortId) (r : RawBooking) (lanes : Lane × Option Lane) : Booking where
  state         := .pending
  matchRef      := BitVec.ofNat 32 r.matchRef
  venue         := Fin.ofNat 12 r.venue
  workingSpec   := laneSpecOf r.workingCode r.workingLane
  protectSpec   := laneSpecOf r.protectCode r.protectLane
  working       := lanes.1
  protection    := lanes.2
  recipients    := recipientsOf r.recipients
  start         := r.start
  plannedEnd    := r.plannedEnd
  lead          := r.lead
  allowance     := r.allowance
  guard         := d.csc.image.defaults.releaseGuard
  priority      := Fin.ofNat 4 r.priority
  tariffClass   := Fin.ofNat 16 r.tariffClass
  tariff        := d.csc.image.tariffs.get (Fin.ofNat 16 r.tariffClass)
  holdOff       := optionalOf r.holdOffSet r.holdOff
  wtr           := optionalOf r.wtrSet r.wtr
  submitter     := port
  node          := none
  closeTime     := none
  nodeWait      := false
  overrunWarned := false
  lateCancel    := false
  endedEarly    := false
  charges       := []

/-- The response of an admission (R48, R55). -/
def admissionFields (h : Handle) (b : Booking) : List Field :=
  [u2 (handleCode h), u1 b.working.val] ++ optField 1 (b.protection.map fun p => p.val)
    ++ [u4 (intervalFirst b), u4 (intervalEnd b), u2 b.guard]

/-- The reply to a refused admission, with the field at its offset (R37). -/
def rejectionReply (offset : BookField → Nat) (x : Rejection) : Reply :=
  ⟨x.result, x.field.map offset,
    match x.handle with
    | some h => pack 0 [u2 (handleCode h)]
    | none => []⟩

/-! ### BOOK_SUBMIT (R36) -/

/-- The offset of the fields after the recipient list (R201). -/
def submitTail (count : Nat) : Nat := alignUp (11 + count) 4

/-- The offsets of the fields of a BOOK_SUBMIT with the given recipient count (R201). -/
def submitOffset (count : Nat) : BookField → Nat
  | .venue => 4
  | .working => 6
  | .protection => 8
  | .count => 10
  | .recipient i => 11 + i
  | .start => submitTail count
  | .plannedEnd => submitTail count + 4
  | .lead => submitTail count + 8
  | .allowance => submitTail count + 10
  | .priority => submitTail count + 12
  | .tariffClass => submitTail count + 13
  | .holdOff => submitTail count + 16
  | .wtr => submitTail count + 20

/-- The parameters of a BOOK_SUBMIT. A count above 8 is refused before any later field, so those are read as if it were 8. -/
def submitParameters (m : Memory) : RawBooking :=
  let n := min 8 (param m 10 1)
  let o := submitTail n
  { matchRef := param m 0 4, venue := param m 4 1
    workingCode := param m 6 1, workingLane := param m 7 1, protectCode := param m 8 1, protectLane := param m 9 1
    count := param m 10 1, recipients := (List.range n).map fun i => param m (11 + i) 1
    start := param m o 4, plannedEnd := param m (o + 4) 4, lead := param m (o + 8) 2, allowance := param m (o + 10) 2
    priority := param m (o + 12) 1, tariffClass := param m (o + 13) 1
    holdOffSet := param m (o + 14) 1, holdOff := param m (o + 16) 2
    wtrSet := param m (o + 18) 1, wtr := param m (o + 20) 2 }

/-- The seven checks of BOOK_SUBMIT, in order (R36): the slot and the lanes of the admitted booking. -/
def admitNew (d : Device) (r : RawBooking) : Except Rejection (SlotId × Lane × Option Lane) :=
  match checkParameters d r with
  | some x => .error x
  | none =>
    match checkTime d r.start r.lead with
    | some x => .error x
    | none =>
      match lowestFree d with
      | none => .error ⟨.tableFull, none, none⟩
      | some i =>
        match checkReservation d none (Fin.ofNat 12 r.venue) (laneSpecOf r.workingCode r.workingLane)
            (laneSpecOf r.protectCode r.protectLane) (recipientsOf r.recipients) (r.start - r.lead)
            (r.plannedEnd + r.allowance + d.csc.image.defaults.releaseGuard) with
        | .error x => .error x
        | .ok lanes => .ok (i, lanes)

def bookSubmit (p : PortId) (m : Memory) (d : Device) : Device × Reply :=
  let r := submitParameters m
  match admitNew d r with
  | .error x => (d, rejectionReply (submitOffset (min 8 r.count)) x)
  | .ok (i, lanes) =>
    let b := admittedBooking d p r lanes
    (notifyAll bookingNotice (updSlot i (fun s => { s with booking := some b }) d),
      doneReply (admissionFields (handleAt d i) b))

def execBookSubmit (s : State) : Host.Outcome State Fault Refusal := onDevice (serve .bookSubmit bookSubmit) s

/-! ### BOOK_AMEND (R53 to R55) -/

/-- The offsets of the fields of a BOOK_AMEND. A field that is none of its parameters keeps the offset it has in BOOK_SUBMIT
(log entry 16). -/
def amendOffset (count : Nat) : BookField → Nat
  | .start => 4
  | .plannedEnd => 8
  | .lead => 12
  | .allowance => 14
  | .count => 16
  | .recipient i => 17 + i
  | .venue => submitOffset count .venue
  | .working => submitOffset count .working
  | .protection => submitOffset count .protection
  | .priority => submitOffset count .priority
  | .tariffClass => submitOffset count .tariffClass
  | .holdOff => submitOffset count .holdOff
  | .wtr => submitOffset count .wtr

/-- The code and the lane of a recorded lane specification. -/
def rawSpec : LaneSpec → Nat × Nat
  | .none => (0, 0)
  | .auto => (1, 0)
  | .explicit l => (2, l.val)

/-- The values an amendment is re-admitted with (R54): its own parameters, and the booking's recorded ones. -/
def amendParameters (b : Booking) (m : Memory) : RawBooking :=
  let n := min 8 (param m 16 1)
  { matchRef := b.matchRef.toNat, venue := b.venue.val
    workingCode := (rawSpec b.workingSpec).1, workingLane := (rawSpec b.workingSpec).2
    protectCode := (rawSpec b.protectSpec).1, protectLane := (rawSpec b.protectSpec).2
    count := param m 16 1, recipients := (List.range n).map fun i => param m (17 + i) 1
    start := param m 4 4, plannedEnd := param m 8 4, lead := param m 12 2, allowance := param m 14 2
    priority := b.priority.val, tariffClass := b.tariffClass.val
    holdOffSet := if b.holdOff.isSome then 1 else 0, holdOff := b.holdOff.getD 0
    wtrSet := if b.wtr.isSome then 1 else 0, wtr := b.wtr.getD 0 }

/-- The re-admission of an amended booking (R54): checks 1, 2 and 4 to 7. -/
def readmit (d : Device) (i : SlotId) (b : Booking) (r : RawBooking) : Except Rejection (Lane × Option Lane) :=
  match checkParameters d r with
  | some x => .error x
  | none =>
    match checkTime d r.start r.lead with
    | some x => .error x
    | none =>
      checkReservation d (some i) b.venue b.workingSpec b.protectSpec (recipientsOf r.recipients) (r.start - r.lead)
        (r.plannedEnd + r.allowance + d.csc.image.defaults.releaseGuard)

/-- The amended entry (R55). -/
def amendedBooking (d : Device) (b : Booking) (r : RawBooking) (lanes : Lane × Option Lane) : Booking :=
  { b with
    working := lanes.1, protection := lanes.2, recipients := recipientsOf r.recipients
    start := r.start, plannedEnd := r.plannedEnd, lead := r.lead, allowance := r.allowance
    guard := d.csc.image.defaults.releaseGuard, tariff := d.csc.image.tariffs.get b.tariffClass }

/-- A PENDING booking whose arm time is at or before now is due (R53). -/
def due (d : Device) (b : Booking) : Bool := decide (intervalFirst b ≤ now d)

def bookAmend (_p : PortId) (m : Memory) (d : Device) : Device × Reply :=
  let h := handleParam m 0
  match bookingOf d h with
  | none => (d, failReply .noSuchBooking (some 0))
  | some b =>
    if b.state ≠ .pending ∨ due d b = true then (d, failReply .wrongState (some 0))
    else
      let r := amendParameters b m
      match readmit d h.slot b r with
      | .error x => (d, rejectionReply (amendOffset (min 8 r.count)) x)
      | .ok lanes =>
        let b' := amendedBooking d b r lanes
        (notifyAll bookingNotice (updBooking h.slot (fun _ => b') d), doneReply (admissionFields h b'))

def execBookAmend (s : State) : Host.Outcome State Fault Refusal := onDevice (serve .bookAmend bookAmend) s

end Sys2Proof.Machine
end

