-- ==== Sys2Proof/Machine/Lifecycle.lean ====
section
/-! DEFINITION. Booking lifecycle (04): the timed events of the BKC's boundary, the close, and the commands BOOK_END,
BOOK_CANCEL, BOOK_EXTEND and BOOK_QUERY. -/

namespace Sys2Proof.Machine

/-! ### Arming (R58, R59) -/

/-- The lowest-numbered FREE node. -/
def lowestFreeNode (d : Device) : Option FeedNode := (List.finRange 48).find? fun n => decide ((node d n).state = .free)

/-- A booking joins the tail of the node wait list (R58, R59). -/
def joinNodeWait (i : SlotId) (d : Device) : Device :=
  let d := updBooking i (fun b => { b with nodeWait := true }) d
  { d with bkc := { d.bkc with nodeWait := d.bkc.nodeWait ++ [i] } }

/-- Arming (R58), at the boundary at t. -/
def arm (t : Word) (i : SlotId) (b : Booking) (d : Device) : Device :=
  let d := updBooking i (fun b => { b with state := .armed }) d
  let d := createSelector i d
  let d := setMeter i (some (freshRecord b t)) d
  let d := b.recipients.foldl (fun d p => preemptTest p d) d
  let d :=
    match lowestFreeNode d with
    | some n => takeNode i n d
    | none => joinNodeWait i d
  notifyAll bookingNotice d

/-! ### The close (R66, R67) -/

/-- Everything a booking holds is released, and its close time is recorded (R66, R73). A node whose conditions are already met
comes free here, at the moment it becomes DRAINING (R95): where several bookings close at one boundary, in slot order, close by
close, and free for a later slot that arms there (log entry 60). -/
def release (i : SlotId) (closeTime : Nat) (b : Booking) (d : Device) : Device :=
  let d := updBooking i (fun b => { b with closeTime := some closeTime, node := none, nodeWait := false }) d
  let d := { d with bkc := { d.bkc with nodeWait := d.bkc.nodeWait.filter fun j => decide (j ≠ i) } }
  let d :=
    match b.node with
    | some n => releaseNode n d
    | none => d
  let d := b.recipients.foldl (fun d p => dropLive (handleAt d i) p d) d
  freeNodes (endSelector i d)

/-- A booking closes (R66), with ENDED_EARLY when the close is before the planned end (R70); its settlement is judged in the
same event (R67, R170). -/
def close (i : SlotId) (closeTime : Nat) (b : Booking) (d : Device) : Device :=
  let d := updBooking i (fun b => { b with state := .settling, endedEarly := decide (closeTime < b.plannedEnd) }) d
  settle i (notifyAll bookingNotice (release i closeTime b d))

/-! ### The BKC's boundary (R57) -/

/-- The timed event of a booking that falls at t (R57, R58, R62, R63, R65). -/
def timedEvent (t : Word) (i : SlotId) (b : Booking) (d : Device) : Device :=
  match b.state with
  | .pending => if intervalFirst b = t.toNat then arm t i b d else d
  | .armed =>
    if b.start = t.toNat then notifyAll bookingNotice (updBooking i (fun b => { b with state := .live }) d) else d
  | .live =>
    if b.plannedEnd = t.toNat then
      if b.allowance = 0 then close i t.toNat b d
      else notifyAll bookingNotice (updBooking i (fun b => { b with state := .overrun }) d)
    else d
  | .overrun => if b.plannedEnd + b.allowance = t.toNat then close i t.toNat b d else d
  | .settling | .unbilled => d

/-- The overrun warning falls due at t (R64). -/
def warningDue (d : Device) (t : Word) (b : Booking) : Bool :=
  let w := d.csc.image.defaults.overrunWarning
  decide (b.state = .overrun) && !b.overrunWarned && decide (0 < w) && decide (b.plannedEnd + b.allowance ≤ t.toNat + w)

/-- The overrun warning of a slot's booking (R64). -/
def overrunWarning (t : Word) (i : SlotId) (d : Device) : Device :=
  match bookingAt d i with
  | none => d
  | some b =>
    if warningDue d t b then notifyAll bookingNotice (updBooking i (fun b => { b with overrunWarned := true }) d) else d

/-- One slot's part of a boundary. -/
def slotBoundary (t : Word) (d : Device) (i : SlotId) : Device :=
  match bookingAt d i with
  | none => d
  | some b => overrunWarning t i (timedEvent t i b d)

/-- The BKC takes the boundary at t: the bookings in slot order (R57). -/
def bkcBoundary (t : Word) (d : Device) : Device := reconcile ((List.finRange 256).foldl (slotBoundary t) d)

/-- BKC_BOUNDARY: the oldest boundary handed to the BKC; where none is handed this event does not happen (log entry 4). -/
def bkcBoundaryTaken (d : Device) : Device :=
  match d.owed.bkc with
  | [] => d
  | t :: rest => bkcBoundary t { d with owed := { d.owed with bkc := rest } }

def execBkcBoundary (s : State) : Host.Outcome State Fault Refusal := onDevice bkcBoundaryTaken s

/-! ### BOOK_END (R70) -/

/-- The state of a slot as a response shows it. -/
def shownState (d : Device) (i : SlotId) : Nat := bookingStateCode ((bookingAt d i).map fun b => b.state)

def bookEnd (_p : PortId) (m : Memory) (d : Device) : Device × Reply :=
  let h := handleParam m 0
  match bookingOf d h with
  | none => (d, failReply .noSuchBooking (some 0))
  | some b =>
    match b.state with
    | .pending | .armed => (d, failReply .wrongState (some 0))
    | .settling | .unbilled => (d, failReply .tooLate (some 0))
    | .live | .overrun =>
      let d' := reconcile (close h.slot (now d) b d)
      (d', doneReply [u2 (handleCode h), u4 (now d), u1 (shownState d' h.slot)])

def execBookEnd (s : State) : Host.Outcome State Fault Refusal := onDevice (serve .bookEnd bookEnd) s

/-! ### BOOK_CANCEL (R72, R73) -/

/-- A late cancel (R73): the booking releases what it holds, has no snapshots and no meters, and is UNBILLED with the
late-cancel charge at once. -/
def cancelLate (i : SlotId) (b : Booking) (d : Device) : Device :=
  let d := release i (now d) b d
  let d := updMeter i (unmetered b) (updBooking i (fun b => { b with lateCancel := true }) d)
  joinUnbilled i (b.recipients.map fun _ => lateCharge b) (notifyAll bookingNotice d)

def bookCancel (_p : PortId) (m : Memory) (d : Device) : Device × Reply :=
  let h := handleParam m 0
  match bookingOf d h with
  | none => (d, failReply .noSuchBooking (some 0))
  | some b =>
    match b.state with
    | .live | .overrun => (d, failReply .wrongState (some 0))
    | .settling | .unbilled => (d, failReply .tooLate (some 0))
    | .pending => (notifyAll bookingNotice (freeSlot h.slot d), doneReply [u2 (handleCode h), u1 (bookingStateCode none)])
    | .armed =>
      let d' := reconcile (cancelLate h.slot b d)
      (d', doneReply [u2 (handleCode h), u4 (now d), u1 (shownState d' h.slot)])

def execBookCancel (s : State) : Host.Outcome State Fault Refusal := onDevice (serve .bookCancel bookCancel) s

/-! ### BOOK_EXTEND (R75, R76) -/

/-- Steps 3 and 4 of R75 fail. -/
def badAllowance (d : Device) (b : Booking) (a : Nat) : Bool :=
  decide (a < b.allowance) || decide (7200 < a)
    || ((decide (b.state = .live) || decide (b.state = .overrun)) && decide (b.plannedEnd + a ≤ now d))
    || decide (Config.lastInstant < b.plannedEnd + a + b.guard)

/-- The extended entry (R76). -/
def extendedBooking (b : Booking) (a : Nat) : Booking :=
  { b with allowance := a, overrunWarned := b.overrunWarned && !decide (b.allowance < a) }

def bookExtend (_p : PortId) (m : Memory) (d : Device) : Device × Reply :=
  let h := handleParam m 0
  let a := param m 2 2
  match bookingOf d h with
  | none => (d, failReply .noSuchBooking (some 0))
  | some b =>
    if holds b = false then (d, failReply .tooLate (some 0))
    else if badAllowance d b a then (d, failReply .badParameter (some 2))
    else
      let b' := extendedBooking b a
      match checkReservation d (some h.slot) b.venue (.explicit b.working)
          ((b.protection.map LaneSpec.explicit).getD .none) b.recipients (intervalFirst b') (intervalEnd b') with
      | .error x => (d, rejectionReply (submitOffset b.recipients.length) x)
      | .ok _ =>
        (notifyAll bookingNotice (updBooking h.slot (fun _ => b') d),
          doneReply [u2 (handleCode h), u2 a, u4 (intervalEnd b')])

def execBookExtend (s : State) : Host.Outcome State Fault Refusal := onDevice (serve .bookExtend bookExtend) s

/-! ### BOOK_QUERY (R78) -/

/-- The flags of a booking, in the order of R32. -/
def bookingFlags (b : Booking) : Nat :=
  (if b.nodeWait then 1 else 0) + (if b.overrunWarned then 2 else 0) + (if b.lateCancel then 4 else 0)
    + (if b.endedEarly then 8 else 0)

/-- The fields of a slot that is not FREE, in the order of R32, but for the selector and the meters (R33). -/
def bookingFields (generation : Byte) (b : Booking) : List Field :=
  [u1 generation.toNat, u1 (bookingStateCode (some b.state)), u4 b.matchRef.toNat, u1 b.venue.val,
   u2 (laneSpecCode b.workingSpec), u1 b.working.val, u2 (laneSpecCode b.protectSpec)]
    ++ optField 1 (b.protection.map fun p => p.val)
    ++ listField (b.recipients.map fun p => u1 p.val) b.recipients.length
    ++ [u4 b.start, u4 b.plannedEnd, u2 b.lead, u2 b.allowance, u2 b.guard, u1 b.priority.val, u1 b.tariffClass.val]
    ++ tariffFields b.tariff ++ optField 2 b.holdOff ++ optField 2 b.wtr ++ [u1 (portCode b.submitter)]
    ++ optField 1 (b.node.map fun n => n.val) ++ optField 4 b.closeTime ++ [u1 (bookingFlags b)]

/-- The place of a slot on a list, counted from 1 at the head. -/
def placeOn (xs : List SlotId) (i : SlotId) : Option Nat :=
  if xs.contains i then some (xs.idxOf i + 1) else none

def bookQuery (_p : PortId) (m : Memory) (d : Device) : Device × Reply :=
  let h := handleParam m 0
  match bookingOf d h with
  | none => (d, failReply .noSuchBooking (some 0))
  | some b =>
    (d, doneReply (bookingFields h.generation b ++ [u4 (intervalFirst b), u4 (intervalEnd b)]
      ++ optField 2 (placeOn d.bkc.nodeWait h.slot) ++ optField 2 (placeOn d.bkc.unbilled h.slot)
      ++ optGroup [1, 1, 1, 1, 2] ((selectorAt d h.slot).map (selectorFields d))
      ++ optField 1 (b.node.map fun n => sourceCode (node d n).confirmed)
      ++ listField (b.recipients.map fun p => u2 (attachmentCode (port d p).confirmed)) b.recipients.length))

def execBookQuery (s : State) : Host.Outcome State Fault Refusal := onDevice (serve .bookQuery bookQuery) s

end Sys2Proof.Machine
end

