-- ==== Sys2Proof/Machine/ConfigStore.lean ====
section
/-! DEFINITION. The configuration image (01): the section bodies, the flash image, CONFIG_WRITE, CONFIG_READ, CONFIG_SAVE and
its end, the start-up load and the restart-number write. -/

namespace Sys2Proof.Machine

/-! ### The section bodies (R201, R202) -/

/-- The eight sections, in the order of their identifiers 1-8 (R201). -/
inductive Section where
  | venueMap | portMap | roles | profiles | calibration | actions | tariffs | defaults
deriving DecidableEq, Repr

def sectionOf : Nat → Option Section
  | 1 => some .venueMap
  | 2 => some .portMap
  | 3 => some .roles
  | 4 => some .profiles
  | 5 => some .calibration
  | 6 => some .actions
  | 7 => some .tariffs
  | 8 => some .defaults
  | _ => none

def allSections : List Section :=
  [.venueMap, .portMap, .roles, .profiles, .calibration, .actions, .tariffs, .defaults]

/-- The code of a VENUE_MAP entry (R201): 0xFF is UNASSIGNED. -/
def venueCode (v : Option Venue) : Nat := (v.map fun x => x.val).getD 0xFF

/-- The fields of a section body, as stored. -/
def sectionFields (img : Image) : Section → List Field
  | .venueMap => img.venueMap.toList.map fun v => u1 (venueCode v)
  | .portMap => img.portMap.toList.flatMap fun e => [u2 e.account.toNat, flag e.enabled]
  | .roles => img.roles.toList.map fun r => u1 (roleBits r)
  | .profiles => img.profiles.toList.flatMap profileFields ++ img.choices.toList.map fun n => u1 n.val
  | .calibration => img.calibration.toList.map s2
  | .actions => img.actions.toList.map fun a => u1 (actionCode a)
  | .tariffs => img.tariffs.toList.flatMap tariffFields
  | .defaults =>
    let x := img.defaults
    [u2 x.holdOff, u2 x.wtr, u2 x.releaseGuard, u1 x.flapLimit, u1 x.flapExponent, u2 x.fabricTimeout, u2 x.overrunWarning]

/-- The widths of the fields of a section body. -/
def sectionWidths (c : Section) : List Nat := (sectionFields factoryImage c).map fun f => f.width

/-! ### Reading a body (R6, R9, R12) -/

/-- The value and the offset of the field `i` of a body. -/
def bodyValue (body : List (Nat × Nat)) (i : Nat) : Nat := ((body[i]?).map fun x => x.2).getD 0
def bodyOffset (body : List (Nat × Nat)) (i : Nat) : Nat := ((body[i]?).map fun x => x.1).getD 0

/-- The first entry whose code fails, by its field number. -/
def firstBad (n : Nat) (bad : Nat → Bool) : Option Nat := (List.range n).find? bad

/-- A VENUE_MAP entry from its code; a code that names no venue is not passed to it. -/
def venueOf (v : Nat) : Option Venue := asFin 12 v

/-- The entry is the fifth of its venue (R12). -/
def fifthOfVenue (body : List (Nat × Nat)) (i : Nat) : Bool :=
  decide (bodyValue body i ≠ 0xFF)
    && decide (((List.range i).countP fun j => decide (bodyValue body j = bodyValue body i)) = 4)

/-- A threshold profile of a PROFILES body, clamped (R9). -/
def bodyProfile (body : List (Nat × Nat)) (n : Nat) : Profile :=
  clampProfile (signed16 (bodyValue body (5 * n))) (signed16 (bodyValue body (5 * n + 1)))
    (signed16 (bodyValue body (5 * n + 2))) (bodyValue body (5 * n + 3)) (bodyValue body (5 * n + 4))

/-- The first profile of a body that breaks the order, with its setting, by its field number (R4). -/
def firstProfileFault (body : List (Nat × Nat)) : Option Nat :=
  (List.range 4).findSome? fun n => (profileFault (bodyProfile body n)).map fun i => 5 * n + i

/-- A tariff class of a TARIFFS body, clamped (R9). -/
def bodyTariff (body : List (Nat × Nat)) (n : Nat) : Tariff :=
  clampTariff (bodyValue body (6 * n)) (bodyValue body (6 * n + 1)) (bodyValue body (6 * n + 2))
    (bodyValue body (6 * n + 3)) (bodyValue body (6 * n + 4)) (bodyValue body (6 * n + 5))

/-- A section read from its body into an image, with its numeric settings clamped and each action not allowed replaced
by NOTIFY, in an image that is loaded too (log entry 40); or the offset of the first offending field: the index and code
fields, then the structural rules (R6, R9, R12). -/
def readSection (c : Section) (body : List (Nat × Nat)) (img : Image) : Except Nat Image :=
  match c with
  | .venueMap =>
    match firstBad 16 fun i => decide (11 < bodyValue body i) && decide (bodyValue body i ≠ 0xFF) with
    | some i => .error (bodyOffset body i)
    | none =>
      match firstBad 16 (fifthOfVenue body) with
      | some i => .error (bodyOffset body i)
      | none => .ok { img with venueMap := Vector.ofFn fun t => venueOf (bodyValue body t.val) }
  | .portMap =>
    .ok { img with portMap := Vector.ofFn fun p =>
      ⟨BitVec.ofNat 16 (bodyValue body (2 * p.val)), decide (bodyValue body (2 * p.val + 1) ≠ 0)⟩ }
  | .roles =>
    if (List.range 4).any fun i => (roleSetOf (bodyValue body i)).maintain then
      .ok { img with roles := Vector.ofFn fun p => roleSetOf (bodyValue body p.val) }
    else .error (bodyOffset body 0)
  | .profiles =>
    match firstBad 16 fun t => decide (3 < bodyValue body (20 + t)) with
    | some t => .error (bodyOffset body (20 + t))
    | none =>
      match firstProfileFault body with
      | some i => .error (bodyOffset body i)
      | none =>
        .ok { img with
          profiles := Vector.ofFn fun n => bodyProfile body n.val
          choices := Vector.ofFn fun t => Fin.ofNat 4 (bodyValue body (20 + t.val)) }
  | .calibration => .ok { img with calibration := Vector.ofFn fun t => clampOffset (signed16 (bodyValue body t.val)) }
  | .actions =>
    match firstBad 22 fun i => decide (2 < bodyValue body i) with
    | some i => .error (bodyOffset body i)
    | none =>
      .ok { img with actions := Vector.ofFn fun i => allowedAction i ((actionOf (bodyValue body i.val)).getD .notify) }
  | .tariffs => .ok { img with tariffs := Vector.ofFn fun n => bodyTariff body n.val }
  | .defaults =>
    let v := bodyValue body
    .ok { img with defaults := clampDefaults (v 0) (v 1) (v 2) (v 3) (v 4) (v 5) (v 6) }

/-! ### CONFIG_WRITE (R12 to R14) -/

/-- Some booking that is not FREE satisfies `p` (R14). -/
def bookingUses (d : Device) (p : Booking → Bool) : Bool := someBooking p d

/-- A booking's working or protection lane lies on a trunk. -/
def usesTrunk (t : Trunk) (b : Booking) : Bool :=
  decide (trunkOf b.working = t) || (b.protection.map fun p => decide (trunkOf p = t)).getD false

/-- The lowest-numbered trunk or port whose entry changes while a booking holds it, by its field number (R14). -/
def inUse (d : Device) (c : Section) (img : Image) : Option Nat :=
  match c with
  | .venueMap =>
    ((List.finRange 16).find? fun t =>
      decide (img.venueMap.get t ≠ d.csc.image.venueMap.get t) && bookingUses d (usesTrunk t)).map fun t => t.val
  | .portMap =>
    ((List.finRange 32).find? fun p =>
      decide (img.portMap.get p ≠ d.csc.image.portMap.get p)
        && bookingUses d fun b => b.recipients.contains p).map fun p => 2 * p.val
  | .roles | .profiles | .calibration | .actions | .tariffs | .defaults => none

/-- Every clean-interval timer restarts and FLAP_LIMIT is evaluated for every trunk (R8, R130, R131). -/
def restartFlaps (d : Device) : Device :=
  handTrunks (List.finRange 16)
    { d with lmn := { d.lmn with lines := d.lmn.lines.map fun x => restartClean d (setFlap d x.flapCounter x) } }

/-- The effects of writing a section (R4, R5, R6, R8, R13). -/
def sectionEffect (c : Section) (d : Device) : Device :=
  match c with
  | .profiles | .calibration => resetRunsOf (fun _ => true) d
  | .actions => handLanes d
  | .defaults => restartFlaps d
  | .venueMap | .portMap | .roles | .tariffs => d

/-- CONFIG_WRITE (R12); an unknown section identifier is named as the offending field (log entry 52). -/
def configWrite (_p : PortId) (m : Memory) (d : Device) : Device × Reply :=
  match sectionOf (param m 0 1) with
  | none => (d, failReply .badParameter (some 0))
  | some c =>
    let body := readFields windowBlank m 1 (sectionWidths c)
    match readSection c body d.csc.image with
    | .error i => (d, failReply .badParameter (some i))
    | .ok img =>
      match inUse d c img with
      | some i => (d, failReply .inUse (some (bodyOffset body i)))
      | none => (sectionEffect c (setUnsaved (setImage img d)), doneReply (sectionFields img c))

def execConfigWrite (s : State) : Host.Outcome State Fault Refusal := onDevice (serve .configWrite configWrite) s

/-! ### CONFIG_READ (R15) -/

/-- CONFIG_READ (R15); an unknown section identifier is named as the offending field (log entry 52). -/
def configRead (_p : PortId) (m : Memory) (d : Device) : Device × Reply :=
  match sectionOf (param m 0 1) with
  | none => (d, failReply .badParameter (some 0))
  | some c => (d, doneReply (sectionFields d.csc.image c ++ [u2 d.csc.restart.toNat, flag d.csc.unsaved]))

def execConfigRead (s : State) : Host.Outcome State Fault Refusal := onDevice (serve .configRead configRead) s

/-! ### The flash image (R10, R16, R17) -/

/-- The bytes of the image area: the sections in order, the restart number, the CRC (R10, R201). -/
def imageBytes (img : Image) (restart : BitVec 16) : List Byte :=
  withCrc (pack 0 (allSections.flatMap (sectionFields img) ++ [u2 restart.toNat]))

/-- The length of the image area. -/
def imageSize : Nat := 426

/-- The offset of the restart number in the image area. -/
def restartOffset : Nat := 424 - 2

/-- The flash after an erase and a write of the first bytes. -/
def flashHolding (bytes : List Byte) : Memory := Memory.ofBytes flashBlank 0 (bytes.take imageSize)

/-- The flash where a write of `bytes` was cut off (R16). -/
def cutFlash (bytes : List Byte) (cut : StoreCut) (flash : Memory) : Memory :=
  match cut with
  | .untouched => flash
  | .written n => flashHolding (bytes.take n)
  | .left found => flashHolding found

/-- The flash after a write that ended, and whether the read-back agreed (R16). -/
def storeOutcome (bytes : List Byte) (result : StoreResult) (flash : Memory) : Memory × Bool :=
  match result with
  | .verified => (flashHolding bytes, true)
  | .differs found => (flashHolding found, decide (found = bytes))
  | .eraseRefused => (flash, false)
  | .writeRefused n => (flashHolding (bytes.take n), false)
  | .timedOut cut => (cutFlash bytes cut flash, false)

/-- The flash write in progress ends: success is all four steps within 400 ms (R16, R18). -/
def endStore (w : StoreWrite) (result : StoreResult) (d : Device) : Device × Bool :=
  let d :=
    match result with
    | .timedOut _ => advanceTo (w.started + Config.storeMs) d
    | .verified | .differs _ | .eraseRefused | .writeRefused _ => d
  let out := storeOutcome w.bytes result d.csc.flash
  ({ d with csc := { d.csc with flash := out.1, writing := none } },
    out.2 && decide (d.tb.clock ≤ w.started + Config.storeMs))

/-- A flash write begins. -/
def beginStore (d : Device) : Device :=
  { d with csc := { d.csc with writing := some ⟨imageBytes d.csc.image d.csc.restart, d.tb.clock⟩ } }

/-- STORE_FAULT has an onset (R19). -/
def storeFault (d : Device) : Device := setDeviceLevel srcStoreFault true (latch deviceRecord srcStoreFault d)

/-! ### CONFIG_SAVE (R16) -/

/-- CONFIG_SAVE is taken: the engine is held until the save ends. -/
def startSave (p : PortId) (d : Device) : Device :=
  let d := beginStore d
  { d with cpi := { d.cpi with serving := some p } }

def execConfigSave (s : State) : Host.Outcome State Fault Refusal := onDevice (engage .configSave startSave) s

/-- A save that succeeded (R16, R19). -/
def saveDone (d : Device) : Device :=
  let d := setDeviceLevel srcStoreFault false { d with csc := { d.csc with unsaved := false } }
  if d.cpi.status = .defaults then { d with cpi := { d.cpi with status := .running } } else d

/-- CONFIG_SAVE_END (R16). Where no save is in progress this event does not happen (log entry 4). -/
def configSaveEnd (result : StoreResult) (d : Device) : Device :=
  match d.cpi.serving with
  | none => d
  | some p =>
    match d.csc.writing with
    | none => d
    | some w =>
      let out := endStore w result d
      if out.2 then complete p (doneReply []) (saveDone out.1)
      else complete p (failReply .storeFailed none) (storeFault out.1)

def execConfigSaveEnd (result : StoreResult) (s : State) : Host.Outcome State Fault Refusal :=
  onDevice (configSaveEnd result) s

/-! ### The start-up load (R17) -/

/-- The image the flash holds, when the CRC agrees and the structural rules are met; each setting passed through R9,
and an action its source does not allow read as NOTIFY (log entry 40). -/
def flashImage (flash : Memory) : Option Image :=
  let bytes := Memory.slice flashBlank flash 0 imageSize
  if crcMatches bytes then
    let fields := readFields flashBlank flash 0 (allSections.flatMap sectionWidths)
    let step := fun (acc : Except Nat Image × List (Nat × Nat)) (c : Section) =>
      let n := (sectionWidths c).length
      (match acc.1 with
        | .ok img => readSection c (acc.2.take n) img
        | .error i => .error i, acc.2.drop n)
    match (allSections.foldl step (.ok factoryImage, fields)).1 with
    | .ok img => some img
    | .error _ => none
  else none

/-- The flash image is blank: every byte of its area reads 0xFF (R10). -/
def flashIsBlank (flash : Memory) : Bool := (Memory.slice flashBlank flash 0 imageSize).all fun b => b = 0xFF#8

/-- The stored restart number. -/
def storedRestart (flash : Memory) : BitVec 16 := BitVec.ofNat 16 (Memory.number flashBlank flash restartOffset 2)

/-- The RAM image and the restart number of a load; the status start-up will end with (R17, R18). -/
def loadImage (img : Image) (restart : BitVec 16) (boot : DeviceStatus) (d : Device) : Device :=
  { d with
    csc := { d.csc with image := img, restart := restart + 1, unsaved := false }
    cpi := { d.cpi with boot := boot, phase := .restartWrite } }

/-- The start-up load ends (R17, R18): judged, loaded, and the restart number set; the flash write begins, and signal-fail
is judged under the loaded actions (log entry 10). -/
def storeLoadEnd (answers : Bool) (d : Device) : Device :=
  if d.cpi.phase = .load then
    let flash := d.csc.flash
    let d :=
      if answers = false then storeFault (loadImage factoryImage 0 .defaults d)
      else if flashIsBlank flash then storeFault (loadImage factoryImage 0 .defaults d)
      else
        match flashImage flash with
        | some img => loadImage img (storedRestart flash) .running d
        | none => storeFault (loadImage factoryImage (storedRestart flash) .defaults d)
    handLanes (beginStore d)
  else d

def execStoreLoadEnd (answers : Bool) (s : State) : Host.Outcome State Fault Refusal := onDevice (storeLoadEnd answers) s

/-! ### The restart write (R18) -/

/-- Monitoring begins: every clean-interval timer starts (R125). -/
def beginMonitoring (d : Device) : Device :=
  { d with lmn := { d.lmn with monitoring := true, lines := d.lmn.lines.map (restartClean d) } }

/-- The restart write ends (R18), monitoring begins (R125), and CLEAR_ALL is sent (R98, R198 step 4). -/
def restartWriteEnd (result : StoreResult) (d : Device) : Device :=
  if d.cpi.phase = .restartWrite then
    match d.csc.writing with
    | none => d
    | some w =>
      let out := endStore w result d
      let d := beginMonitoring (if out.2 then out.1 else storeFault out.1)
      sendOrder .clearAll { d with cpi := { d.cpi with phase := .clearAll } }
  else d

def execRestartWriteEnd (result : StoreResult) (s : State) : Host.Outcome State Fault Refusal :=
  onDevice (restartWriteEnd result) s

end Sys2Proof.Machine
end

