-- ==== Sys2Proof/Machine/Startup.lean ====
section
/-! DEFINITION. Device resets and start-up (R197 to R200): POWER_ON, RESET_LINE, SELF_CHECK_END and DEVICE_RESTART. -/

namespace Sys2Proof.Machine

/-- The flash as a device reset finds it: a write in progress is abandoned at the point reached (R16, R197). -/
def flashAtReset (cut : StoreCut) (d : Device) : Memory :=
  match d.csc.writing with
  | some w => cutFlash w.bytes cut d.csc.flash
  | none => d.csc.flash

/-- A device reset (R197): every block takes its reset values, and the flash keeps what it holds. -/
def deviceReset (cut : StoreCut) (d : Device) : Device := resetDevice (flashAtReset cut d)

/-- POWER_ON. -/
def execPowerOn (cut : StoreCut) (s : State) : Host.Outcome State Fault Refusal := onDevice (deviceReset cut) s

/-- RESET_LINE. -/
def execResetLine (cut : StoreCut) (s : State) : Host.Outcome State Fault Refusal := onDevice (deviceReset cut) s

/-- The self-check ends (R198 step 2, R199). -/
def selfCheckEnd (passed : Bool) (d : Device) : Device :=
  if d.cpi.phase = .selfCheck then
    if passed then { d with cpi := { d.cpi with phase := .load } }
    else { d with cpi := { d.cpi with phase := .halted, status := .halted } }
  else d

def execSelfCheckEnd (passed : Bool) (s : State) : Host.Outcome State Fault Refusal := onDevice (selfCheckEnd passed) s

/-- The owner of DEVICE_RESTART (R200); in HALTED it is accepted whatever its force parameter (R199). -/
def deviceRestart (p : PortId) (d : Device) : Device :=
  let force := decide (param (window d p).params 0 1 ≠ 0)
  if d.cpi.status = .halted ∨ force = true ∨ someBooking running d = false then deviceReset .untouched d
  else complete p (failReply .inUse (some 0)) d

def execDeviceRestart (s : State) : Host.Outcome State Fault Refusal := onDevice (engage .deviceRestart deviceRestart) s

end Sys2Proof.Machine
end

