-- ==== Sys2Proof/Machine/Windows.lean ====
section
/-! DEFINITION. The windows of the control ports (R190 to R192, R203): the master's writes, what each word reads, and
NOTICE_CLEAR. -/

namespace Sys2Proof.Machine

/-! ### Master writes (R192, R157, R191) -/

/-- The command word after a master write (R192). -/
def commandWordAfter (c : CommandWord) (v : Word) : CommandWord :=
  if v = commandWordCode .taken ∨ v = commandWordCode .done ∨ v = commandWordCode .failed then c
  else
    match c with
    | .taken => .taken
    | .ready | .posted _ | .done | .failed => if v = commandWordCode .ready then .ready else .posted v

def writeCommandWord (p : PortId) (v : Word) (d : Device) : Device :=
  updWindow p (fun w => { w with command := commandWordAfter w.command v }) d

/-- The enable set is replaced at once; the reserved bits of the word are ignored (R157, R203). -/
def writeEnable (p : PortId) (v : Word) (d : Device) : Device := updWindow p (fun w => { w with enable := v.setWidth 7 }) d

/-- A word of the parameter area is stored, except while the command word reads TAKEN (R190, R192). -/
def writeParameter (p : PortId) (i : Fin 256) (v : Word) (d : Device) : Device :=
  updWindow p (fun w =>
    if w.command = .taken then w else { w with params := Memory.writeWord windowBlank w.params (4 * i.val) v }) d

/-- COMMAND_WORD_WRITE. -/
def execCommandWordWrite (port : PortId) (value : Word) (s : State) : Host.Outcome State Fault Refusal :=
  onDevice (writeCommandWord port value) s

/-- NOTICE_ENABLE_WRITE. -/
def execNoticeEnableWrite (port : PortId) (value : Word) (s : State) : Host.Outcome State Fault Refusal :=
  onDevice (writeEnable port value) s

/-- PARAMETER_AREA_WRITE. -/
def execParameterAreaWrite (port : PortId) (word : Fin 256) (value : Word) (s : State) :
    Host.Outcome State Fault Refusal :=
  onDevice (writeParameter port word value) s

/-- A master write by its offset in the window (R203): the three writable areas, and the discard of every other write. -/
def writeWindow (p : PortId) (offset : Nat) (v : Word) (d : Device) : Device :=
  if offset = 0x00C then writeEnable p v d
  else if offset = 0x018 then writeCommandWord p v d
  else if 0x040 ≤ offset ∧ offset < 0x440 then writeParameter p (Fin.ofNat 256 ((offset - 0x040) / 4)) v d
  else d

/-- WINDOW_WRITE (R191): the write of a read-only or unassigned word is discarded. A word the master may write is written.
An offset that is no word of the window stops: outside it, or not at a multiple of 4. -/
def execWindowWrite (port : PortId) (offset : Nat) (value : Word) (s : State) : Host.Outcome State Fault Refusal :=
  if 2048 ≤ offset then .fault .outsideWindow
  else if offset % 4 ≠ 0 then .fault .notAWord
  else onDevice (writeWindow port offset value) s

/-! ### Master reads (R190, R203) -/

/-- Four bytes as a word, the first most significant. -/
def wordOf (b0 b1 b2 b3 : Byte) : Word := b0 ++ b1 ++ b2 ++ b3

/-- The device status word: status, reserved, restart number. -/
def statusWord (d : Device) : Word := (BitVec.ofNat 8 (statusCode d.cpi.status) ++ 0#8) ++ d.csc.restart

/-- The time mirror state word (R29). -/
def mirrorState (d : Device) : Word :=
  wordOf (if d.tb.valid then 1#8 else 0#8) (BitVec.ofNat 8 (refStateCode d.tb.ref)) 0#8 0#8

/-- The second word of the error block: field index, result code, reserved. -/
def errorWord (w : Window) : Word :=
  (BitVec.ofNat 16 (w.field.getD 0xFFFF) ++ BitVec.ofNat 8 ((w.result.map resultCode).getD 0xFF)) ++ 0#8

/-- What a master reads at an offset of its window (R203); an unassigned word reads as zero (R191). -/
def windowRead (d : Device) (p : PortId) (offset : Nat) : Word :=
  let w := window d p
  if offset = 0x000 then 0x6B080018#32
  else if offset = 0x004 then statusWord d
  else if offset = 0x008 then (noticeWord d p).setWidth 32
  else if offset = 0x00C then w.enable.setWidth 32
  else if offset = 0x010 then d.tb.time
  else if offset = 0x014 then mirrorState d
  else if offset = 0x018 then commandWordCode w.command
  else if offset = 0x01C then w.code
  else if offset = 0x020 then errorWord w
  else if 0x040 ≤ offset ∧ offset < 0x440 then BitVec.ofNat 32 (Memory.number windowBlank w.params (offset - 0x040) 4)
  else if 0x440 ≤ offset ∧ offset < 0x800 then BitVec.ofNat 32 (Memory.number windowBlank w.response (offset - 0x440) 4)
  else 0#32

/-! ### NOTICE_CLEAR (R158) -/

/-- The sticky flags a NOTICE_CLEAR removes: the named ones; level classes and reserved bits are passed over. -/
def namedFlags (w : Window) : NoticeSet := BitVec.ofNat 7 (param w.params 0 1) &&& 0x0F#7

/-- The completion of NOTICE_CLEAR: COMMAND is set first and the named flags are removed after it. -/
def noticeClear (p : PortId) (d : Device) : Device :=
  let w := window d p
  let named := namedFlags w
  let sticky := (w.sticky ||| commandNotice) &&& ~~~named
  let word := (sticky ||| levelClasses d) &&& w.enable
  updWindow p (fun w => { w with sticky := w.sticky &&& ~~~named }) (complete p (doneReply [u1 sticky.toNat, u1 word.toNat]) d)

def execNoticeClear (s : State) : Host.Outcome State Fault Refusal := onDevice (engage .noticeClear noticeClear) s

end Sys2Proof.Machine
end

