-- ==== Sys2Proof/Machine/Tables.lean ====
section
/-! DEFINITION. Reading the tables (R195, R196, R203): the entries of the eight tables, TABLE_READ and TABLE_NEXT. -/

namespace Sys2Proof.Machine

/-! ### Sizes and ranges (R195, R203) -/

/-- The number of indices of a table (R195). -/
def tableRange : TableId → Nat
  | .bookings => 256
  | .trunks => 16
  | .ports => 32
  | .nodes => 48
  | .faults => 49
  | .tariffs => 16
  | .waiting => 128
  | .unbilled => 256

/-- The bytes of an entry (R203). -/
def entrySize : TableId → Nat
  | .bookings => 96
  | .trunks => 64
  | .ports | .faults | .waiting => 32
  | .nodes => 16
  | .tariffs => 12
  | .unbilled => 132

/-- The entries that fit whole in a response (R203). -/
def entriesPerResponse (t : TableId) : Nat :=
  (Config.responseBytes - (match t with
    | .unbilled => 20
    | _ => 8)) / entrySize t

/-! ### Entries -/

def slotFields (s : Slot) : List Field :=
  match s.booking with
  | none => [u1 s.generation.toNat, u1 (bookingStateCode none)]
  | some b => bookingFields s.generation b

def filterFields (f : Filter) : List Field := [flag f.present, u1 f.run]

/-- A trunk's entry: venue, profile choice, offset and line record (R144). Each power and the time left of the clean interval
stand after a presence byte of their own, SATURATED is always shown (log entry 53). The awaited second and the last closed
second are one optional group each (log entry 58), the eight lane grades without a count byte (log entry 64); the late-report
count has 2 bytes (log entry 59). -/
def trunkFields (d : Device) (t : Trunk) : List Field :=
  let x := line d t
  [u1 (venueCode (d.csc.image.venueMap.get t)), u1 (d.csc.image.choices.get t).val, s2 (d.csc.image.calibration.get t),
   flag x.alarmSeen, flag x.los, u1 x.frameLoss.toNat, u1 x.upstream.toNat]
    ++ optField 2 (x.raw.map fun v => (BitVec.ofInt 16 v).toNat)
    ++ optField 2 (x.calibrated.map fun v => (BitVec.ofInt 16 v).toNat)
    ++ [flag x.saturated] ++ filterFields x.lowWarn ++ filterFields x.lowAlarm ++ filterFields x.highAlarm
    ++ [u1 x.flapCounter, flag x.flapLimit] ++ optField 2 (x.cleanTimer.map fun e => secondsLeft d e)
    ++ optGroup [4, 1, 1] (x.awaited.map fun a => [u4 a.second.toNat, flag a.los, u1 a.frameLoss.toNat])
    ++ [flag x.reportGap, u2 x.lateCount]
    ++ optGroup [4, 1, 1, 1, 1, 1, 1, 1, 1, 1] (x.lastClosed.map fun c =>
        [u4 c.second.toNat] ++ c.grades.toList.map (fun g => u1 (gradeCode g)) ++ [flag c.unmonitored])

/-- The tag and the number of sends of the order in flight, when it concerns the entry (R99), behind one presence
byte (log entry 58). -/
def concernFields (d : Device) (concerns : OrderKind → Bool) : List Field :=
  optGroup [1, 1] ((d.fcu.inFlight.filter fun o => concerns o.kind).map fun o => [u1 o.tag.toNat, u1 o.sends])

/-- The order in flight concerns a node: it is the node's own order, or CLEAR_ALL (log entry 17). -/
def concernsNode (n : FeedNode) : OrderKind → Bool
  | .clearAll => true
  | .nodeSelect m _ | .nodeRelease m => decide (m = n)
  | .portJoin _ _ | .portPark _ | .portTest _ => false

/-- The order in flight concerns a port: it is the port's own order, or CLEAR_ALL (log entry 17). -/
def concernsPort (p : HandoffPort) : OrderKind → Bool
  | .clearAll => true
  | .portJoin q _ | .portPark q | .portTest q => decide (q = p)
  | .nodeSelect _ _ | .nodeRelease _ => false

/-- A port's entry: account, enabled flag, fabric entry and transmitter record (R99, R144). -/
def portFields (d : Device) (p : HandoffPort) : List Field :=
  let e := port d p
  let x := d.lmn.transmitters.get p
  [u2 (d.csc.image.portMap.get p).account.toNat, flag (d.csc.image.portMap.get p).enabled] ++ claimFields d p
    ++ [flag e.stuck] ++ optField 1 (e.refusal.map fun r => r.toNat) ++ concernFields d (concernsPort p)
    ++ [flag x.seen, flag x.txFault, flag x.farEndDown]

/-- A node's entry (R99). -/
def nodeFields (d : Device) (n : FeedNode) : List Field :=
  let e := node d n
  [u1 (nodeStateCode e.state)] ++ optField 2 (e.owner.map handleCode)
    ++ [u1 (laneOrNoneCode e.desired), u1 (sourceCode e.confirmed), flag e.established, flag e.stuck]
    ++ optField 1 (e.refusal.map fun r => r.toNat) ++ concernFields d (concernsNode n)

/-- The lanes of a trunk that have signal-fail, as a set. -/
def failedLanes (d : Device) (t : Trunk) : Nat :=
  (List.finRange 8).foldl (fun s i => if signalFail d (laneOf t i) then s + 2 ^ i.val else s) 0

/-- A fault record's entry (R159); the signal-fail of a trunk's eight lanes is one set byte (log entry 61). -/
def faultFields (d : Device) (r : Fin 49) : List Field :=
  recordFields d r ++ [u1 (((asFin 16 r.val).map (failedLanes d)).getD 0)]

/-- The code of a lane's view (R202). -/
def viewCode (d : Device) (l : Lane) : Nat :=
  if laneQuarantined d l then 2 else if laneFailed d l then 1 else 0

/-- A lane has an entry in the waiting-list table (R123). -/
def protects (d : Device) (l : Lane) : Bool := someBooking (fun b => running b && decide (b.protection = some l)) d

/-- A lane's entry in the waiting-list table (R123). -/
def waitingFields (d : Device) (l : Lane) : List Field :=
  let x := lane d l
  [u1 l.val, u1 (viewCode d l)]
    ++ optGroup [2, 1] (x.holder.map fun h =>
        [u2 (handleCode h), u1 (((selectorAt d h.slot).map fun s => selectorStateCode s.state).getD 0)])
    ++ listField (x.waiting.flatMap fun w => [u2 (handleCode w.handle), u1 w.priority.val, u4 w.joined.toNat])
        x.waiting.length

/-- An entry of the unbilled list (R189); its flag byte has the bits of the billing record (log entry 50). -/
def unbilledFields (d : Device) (i : SlotId) : List Field :=
  match bookingAt d i with
  | none => []
  | some b =>
    u2 (handleCode (handleAt d i))
      :: listField (b.charges.flatMap fun c => [u4 c.gross, u4 c.credit, u4 c.net, u1 (chargeFlags c)]) b.recipients.length

/-- The entries of a table with their indices, from an index on, in index order (R195). None of the eight tables is the node
wait list (log entry 44). -/
def tableEntries (d : Device) (t : TableId) (first : Nat) : List (Nat × List Field) :=
  match t with
  | .bookings => ((List.finRange 256).filter fun i => first ≤ i.val).map fun i => (i.val, slotFields (d.bkc.slots.get i))
  | .trunks => ((List.finRange 16).filter fun i => first ≤ i.val).map fun i => (i.val, trunkFields d i)
  | .ports => ((List.finRange 32).filter fun i => first ≤ i.val).map fun i => (i.val, portFields d i)
  | .nodes => ((List.finRange 48).filter fun i => first ≤ i.val).map fun i => (i.val, nodeFields d i)
  | .faults => ((List.finRange 49).filter fun i => first ≤ i.val).map fun i => (i.val, faultFields d i)
  | .tariffs =>
    ((List.finRange 16).filter fun i => first ≤ i.val).map fun i => (i.val, tariffFields (d.csc.image.tariffs.get i))
  | .waiting =>
    ((List.finRange 128).filter fun l => decide (first ≤ l.val) && protects d l).map fun l => (l.val, waitingFields d l)
  | .unbilled => (((d.bkc.unbilled.map (unbilledFields d)).zipIdx).drop first).map fun x => (x.2, x.1)

/-! ### TABLE_READ and TABLE_NEXT (R195, R196) -/

/-- The billing state in a response of the unbilled list (R195, R203). -/
def billingFields (d : Device) (t : TableId) : List Field :=
  match t with
  | .unbilled => [u2 d.bq.queue.length] ++ optField 4 ((headSerial d).map fun x => x.toNat) ++ [u4 d.bq.nextSerial.toNat]
  | .bookings | .trunks | .ports | .nodes | .faults | .tariffs | .waiting => []

/-- The response of a read (R195, R203); a next index of end is 0xFFFF. -/
def tableResponse (d : Device) (t : TableId) (first : Nat) (entries : List (Nat × List Field)) (next : Option Nat) :
    List Byte :=
  pack 0 ([u1 (tableCode t), u1 0, u2 first, u1 entries.length, u1 0, u2 (next.getD 0xFFFF)] ++ billingFields d t)
    ++ entries.flatMap fun e => fit (entrySize t) (pack 0 e.2)

/-- The next index after the entries returned: end when no entry lies beyond them (R195). -/
def nextIndex (returned rest : List (Nat × List Field)) : Option Nat :=
  if rest = [] then none else returned.getLast?.map fun e => e.1 + 1

/-- A read of a table by a port, from a first index, with a count above 0 (R195). -/
def readTable (p : PortId) (t : TableId) (first count : Nat) (d : Device) : Device × Reply :=
  let n := min count (entriesPerResponse t)
  let entries := tableEntries d t first
  let next := nextIndex (entries.take n) (entries.drop n)
  (updWindow p (fun w => { w with cursor := some ⟨t, next⟩ }) d,
    ⟨.done, none, tableResponse d t first (entries.take n) next⟩)

/-- TABLE_READ (R195): the table, the first index in 2 bytes at offset 2, the count at offset 4 (log entry 56). -/
def tableRead (p : PortId) (m : Memory) (d : Device) : Device × Reply :=
  match tableOf (param m 0 1) with
  | none => (d, failReply .badParameter (some 0))
  | some t =>
    if tableRange t ≤ param m 2 2 then (d, failReply .badParameter (some 2))
    else if param m 4 1 = 0 then (d, failReply .badParameter (some 4))
    else readTable p t (param m 2 2) (param m 4 1) d

def tableNext (p : PortId) (m : Memory) (d : Device) : Device × Reply :=
  if param m 0 1 = 0 then (d, failReply .badParameter (some 0))
  else
    match (window d p).cursor with
    | none => (d, failReply .wrongState none)
    | some ⟨t, none⟩ => (d, ⟨.done, none, tableResponse d t 0xFFFF [] none⟩)
    | some ⟨t, some first⟩ => readTable p t first (param m 0 1) d

def execTableRead (s : State) : Host.Outcome State Fault Refusal := onDevice (serve .tableRead tableRead) s

def execTableNext (s : State) : Host.Outcome State Fault Refusal := onDevice (serve .tableNext tableNext) s

end Sys2Proof.Machine
end

