-- ==== Sys2Proof/Machine/Dispatch.lean ====
section
/-! DEFINITION. One arm for each row of the table: the direct call of its meaning. -/

namespace Sys2Proof.Machine

def exec (i : Instr) (s : State) : Host.Outcome State Fault Refusal :=
  match i with
  | .powerOn cut => Sys2Proof.Machine.execPowerOn cut s
  | .resetLine cut => Sys2Proof.Machine.execResetLine cut s
  | .selfCheckEnd passed => Sys2Proof.Machine.execSelfCheckEnd passed s
  | .storeLoadEnd answers => Sys2Proof.Machine.execStoreLoadEnd answers s
  | .restartWriteEnd result => Sys2Proof.Machine.execRestartWriteEnd result s
  | .boundary => Sys2Proof.Machine.execBoundary s
  | .referencePulse delay => Sys2Proof.Machine.execReferencePulse delay s
  | .referenceLoss => Sys2Proof.Machine.execReferenceLoss s
  | .bkcBoundary => Sys2Proof.Machine.execBkcBoundary s
  | .lmnBoundary => Sys2Proof.Machine.execLmnBoundary s
  | .svmBoundary => Sys2Proof.Machine.execSvmBoundary s
  | .alarmFrame trunk los frameLoss upstream => Sys2Proof.Machine.execAlarmFrame trunk los frameLoss upstream s
  | .secondFrame trunk label lanes => Sys2Proof.Machine.execSecondFrame trunk label lanes s
  | .powerFrame trunk raw valid => Sys2Proof.Machine.execPowerFrame trunk raw valid s
  | .portstatFrame port txFault farEndLink => Sys2Proof.Machine.execPortstatFrame port txFault farEndLink s
  | .lslFrameDiscard frame => Sys2Proof.Machine.execLslFrameDiscard frame s
  | .cleanIntervalExpiry trunk => Sys2Proof.Machine.execCleanIntervalExpiry trunk s
  | .fabricAck tag => Sys2Proof.Machine.execFabricAck tag s
  | .fabricNak tag reason => Sys2Proof.Machine.execFabricNak tag reason s
  | .folReplyNotAdmitted reply => Sys2Proof.Machine.execFolReplyNotAdmitted reply s
  | .resetNotice => Sys2Proof.Machine.execResetNotice s
  | .orderTimerExpiry => Sys2Proof.Machine.execOrderTimerExpiry s
  | .holdOffExpiry slot => Sys2Proof.Machine.execHoldOffExpiry slot s
  | .waitToRestoreExpiry slot => Sys2Proof.Machine.execWaitToRestoreExpiry slot s
  | .returnTimerExpiry slot => Sys2Proof.Machine.execReturnTimerExpiry slot s
  | .configSaveEnd result => Sys2Proof.Machine.execConfigSaveEnd result s
  | .commandWordWrite port value => Sys2Proof.Machine.execCommandWordWrite port value s
  | .noticeEnableWrite port value => Sys2Proof.Machine.execNoticeEnableWrite port value s
  | .parameterAreaWrite port word value => Sys2Proof.Machine.execParameterAreaWrite port word value s
  | .windowWrite port offset value => Sys2Proof.Machine.execWindowWrite port offset value s
  | .badCommand => Sys2Proof.Machine.execBadCommand s
  | .bookSubmit => Sys2Proof.Machine.execBookSubmit s
  | .bookAmend => Sys2Proof.Machine.execBookAmend s
  | .bookEnd => Sys2Proof.Machine.execBookEnd s
  | .bookCancel => Sys2Proof.Machine.execBookCancel s
  | .bookExtend => Sys2Proof.Machine.execBookExtend s
  | .bookQuery => Sys2Proof.Machine.execBookQuery s
  | .timeSet => Sys2Proof.Machine.execTimeSet s
  | .configWrite => Sys2Proof.Machine.execConfigWrite s
  | .configRead => Sys2Proof.Machine.execConfigRead s
  | .configSave => Sys2Proof.Machine.execConfigSave s
  | .deviceRestart => Sys2Proof.Machine.execDeviceRestart s
  | .profileWriteLevels => Sys2Proof.Machine.execProfileWriteLevels s
  | .profileWriteSelect => Sys2Proof.Machine.execProfileWriteSelect s
  | .calWrite => Sys2Proof.Machine.execCalWrite s
  | .tariffWrite => Sys2Proof.Machine.execTariffWrite s
  | .actionWrite => Sys2Proof.Machine.execActionWrite s
  | .portTest => Sys2Proof.Machine.execPortTest s
  | .portUntest => Sys2Proof.Machine.execPortUntest s
  | .fabricResync => Sys2Proof.Machine.execFabricResync s
  | .protForce => Sys2Proof.Machine.execProtForce s
  | .protLock => Sys2Proof.Machine.execProtLock s
  | .protClear => Sys2Proof.Machine.execProtClear s
  | .trunkQuarantine => Sys2Proof.Machine.execTrunkQuarantine s
  | .trunkRelease => Sys2Proof.Machine.execTrunkRelease s
  | .faultClear => Sys2Proof.Machine.execFaultClear s
  | .maskSet => Sys2Proof.Machine.execMaskSet s
  | .maskClear => Sys2Proof.Machine.execMaskClear s
  | .maskWrite => Sys2Proof.Machine.execMaskWrite s
  | .groupWrite => Sys2Proof.Machine.execGroupWrite s
  | .meterRead => Sys2Proof.Machine.execMeterRead s
  | .billFetch => Sys2Proof.Machine.execBillFetch s
  | .billRelease => Sys2Proof.Machine.execBillRelease s
  | .tableRead => Sys2Proof.Machine.execTableRead s
  | .tableNext => Sys2Proof.Machine.execTableNext s
  | .noticeClear => Sys2Proof.Machine.execNoticeClear s

end Sys2Proof.Machine
end

