-- ==== Sys2Proof/Machine/Idle.lean ====
section
/-! DEFINITION. What the part does of itself while no command waits (log entry 6): the timed events that are due, in a fixed
order, then the command engine's next take, and otherwise one millisecond of the oscillator. -/

namespace Sys2Proof.Machine

/-- The timed events of the Time Base that are due (R21, R24 to R26). -/
def dueTime (d : Device) : Option Instr :=
  if watched d && (d.tb.lastPulse.map fun p => decide (p + Config.lossMs ≤ d.tb.clock)).getD false then some .referenceLoss
  else if oscillates d && decide (Config.secondMs ≤ d.tb.elapsed) then some .boundary
  else none

/-- The boundaries that wait at the blocks (R22). -/
def dueBoundary (d : Device) : Option Instr :=
  if d.owed.lmn ≠ [] then some .lmnBoundary
  else if d.owed.bkc ≠ [] then some .bkcBoundary
  else if d.owed.svm ≠ [] then some .svmBoundary
  else none

/-- The fabric order timer is due (R92). -/
def dueOrder (d : Device) : Option Instr :=
  (d.fcu.inFlight.filter fun o => decide (o.expiry ≤ d.tb.clock)).map fun _ => .orderTimerExpiry

/-- The event of a selector timer that is due (R106, R109, R110). -/
def timerEvent (i : SlotId) (t : SelectorTimer) : Instr :=
  match t.kind with
  | .holdOff => .holdOffExpiry i
  | .waitToRestore => .waitToRestoreExpiry i
  | .returnTimer => .returnTimerExpiry i

/-- The first slot whose selector timer is due. -/
def dueSelector (d : Device) : Option Instr :=
  (List.finRange 256).findSome? fun i =>
    (((selectorAt d i).bind fun s => s.timer).filter fun t => decide (t.expiry ≤ d.tb.clock)).map (timerEvent i)

/-- The first trunk whose clean interval is due to end (R130). -/
def dueClean (d : Device) : Option Instr :=
  (List.finRange 16).findSome? fun t =>
    ((line d t).cleanTimer.filter fun e => decide (e ≤ d.tb.clock)).map fun _ => .cleanIntervalExpiry t

/-- The row of the table that takes a command; PROFILE_WRITE has two, one for each form. -/
def commandRow (select : Bool) : Command → Instr
  | .bookSubmit => .bookSubmit
  | .bookAmend => .bookAmend
  | .bookEnd => .bookEnd
  | .bookCancel => .bookCancel
  | .bookExtend => .bookExtend
  | .bookQuery => .bookQuery
  | .timeSet => .timeSet
  | .configWrite => .configWrite
  | .configRead => .configRead
  | .configSave => .configSave
  | .deviceRestart => .deviceRestart
  | .profileWrite => if select then .profileWriteSelect else .profileWriteLevels
  | .calWrite => .calWrite
  | .tariffWrite => .tariffWrite
  | .portTest => .portTest
  | .portUntest => .portUntest
  | .fabricResync => .fabricResync
  | .protForce => .protForce
  | .protLock => .protLock
  | .protClear => .protClear
  | .actionWrite => .actionWrite
  | .trunkQuarantine => .trunkQuarantine
  | .trunkRelease => .trunkRelease
  | .faultClear => .faultClear
  | .maskSet => .maskSet
  | .maskClear => .maskClear
  | .maskWrite => .maskWrite
  | .groupWrite => .groupWrite
  | .meterRead => .meterRead
  | .billFetch => .billFetch
  | .billRelease => .billRelease
  | .tableRead => .tableRead
  | .tableNext => .tableNext
  | .noticeClear => .noticeClear

/-- The take of a free engine, when a code is posted (R194). -/
def dueTake (d : Device) : Option Instr :=
  ((chosenPort d).bind (postedCode d)).map fun code =>
    match commandOf code with
    | some c => commandRow (selectForm d) c
    | none => .badCommand

/-- The event the part takes of itself now, if one is due. -/
def dueEvent (d : Device) : Option Instr :=
  match dueTime d with
  | some e => some e
  | none =>
    match dueBoundary d with
    | some e => some e
    | none =>
      match dueOrder d with
      | some e => some e
      | none =>
        match dueSelector d with
        | some e => some e
        | none =>
          match dueClean d with
          | some e => some e
          | none => dueTake d

/-- One millisecond of the oscillator passes. -/
def tick (d : Device) : Device := advanceTo (d.tb.clock + 1) d

end Sys2Proof.Machine
end

