-- ==== Sys2Proof/Machine/Step.lean ====
section
/-! DEFINITION. One step: the command at the front of the queue, or, with an empty queue, what the part does of itself. -/

namespace Sys2Proof.Machine

/-- An empty queue (log entry 6): the due event, or one millisecond of the oscillator. -/
def idle (s : State) : Host.Outcome State Fault Refusal :=
  match dueEvent s.dev with
  | some e => exec e s
  | none => .next { s with dev := tick s.dev }

/-- One step. -/
def step (s : State) : Host.Outcome State Fault Refusal :=
  match s.pending with
  | [] => idle s
  | c :: rest => exec c { s with pending := rest }

/-- The command a table word spells, put at the front of the queue; no word spells one (log entry 1). -/
def State.withFetchWord (s : State) (nbits w : Nat) : State :=
  match decodeTableWord nbits w with
  | some c => { s with pending := c :: s.pending }
  | none => s

end Sys2Proof.Machine
end

