-- ==== Sys2Proof/WellFormed.lean ====
section
/-! DEFINITION. Which commands and events are well formed: a row's operands lie where the row's own rule has them. A frame
event names a trunk or port that exists, a discard is a unit the checks refuse, a WINDOW_WRITE names a word the master does
not write, and a flash outcome speaks of the image area. The machine takes ill-formed terms too, and says what they do. -/

namespace Sys2Proof

/-- The image area of the flash has 426 bytes (R10, R201). -/
def cutWellFormed : StoreCut → Bool
  | .untouched => true
  | .written n => decide (n ≤ 426)
  | .left found => decide (found.length = 426)

def resultWellFormed : StoreResult → Bool
  | .verified => true
  | .differs found => decide (found.length = 426)
  | .eraseRefused => true
  | .writeRefused n => decide (n ≤ 426)
  | .timedOut cut => cutWellFormed cut

/-- The offsets the master writes (R190, R203): the enable word, the command word, the parameter area. -/
def masterWrites (offset : Nat) : Bool :=
  decide (offset = 0x00C) || decide (offset = 0x018) || (decide (0x040 ≤ offset) && decide (offset < 0x440))

/-- A command or event whose operands its own row admits. -/
def wellFormed : Instr → Bool
  | .powerOn cut => cutWellFormed cut
  | .resetLine cut => cutWellFormed cut
  | .selfCheckEnd _ => true
  | .storeLoadEnd _ => true
  | .restartWriteEnd result => resultWellFormed result
  | .boundary => true
  | .referencePulse _ => true
  | .referenceLoss => true
  | .bkcBoundary => true
  | .lmnBoundary => true
  | .svmBoundary => true
  | .alarmFrame trunk _ _ _ => decide (trunk.toNat < 16)
  | .secondFrame trunk _ _ => decide (trunk.toNat < 16)
  | .powerFrame trunk _ _ => decide (trunk.toNat < 16)
  | .portstatFrame port _ _ => decide (port.toNat < 32)
  | .lslFrameDiscard frame => (Machine.lslFrame frame).isNone
  | .cleanIntervalExpiry _ => true
  | .fabricAck _ => true
  | .fabricNak _ _ => true
  | .folReplyNotAdmitted reply => (Machine.folReply reply).isNone
  | .resetNotice => true
  | .orderTimerExpiry => true
  | .holdOffExpiry _ => true
  | .waitToRestoreExpiry _ => true
  | .returnTimerExpiry _ => true
  | .configSaveEnd result => resultWellFormed result
  | .commandWordWrite _ _ => true
  | .noticeEnableWrite _ _ => true
  | .parameterAreaWrite _ _ _ => true
  | .windowWrite _ offset _ => decide (offset < 2048) && decide (offset % 4 = 0) && !masterWrites offset
  | .badCommand => true
  | .bookSubmit => true
  | .bookAmend => true
  | .bookEnd => true
  | .bookCancel => true
  | .bookExtend => true
  | .bookQuery => true
  | .timeSet => true
  | .configWrite => true
  | .configRead => true
  | .configSave => true
  | .deviceRestart => true
  | .profileWriteLevels => true
  | .profileWriteSelect => true
  | .calWrite => true
  | .tariffWrite => true
  | .actionWrite => true
  | .portTest => true
  | .portUntest => true
  | .fabricResync => true
  | .protForce => true
  | .protLock => true
  | .protClear => true
  | .trunkQuarantine => true
  | .trunkRelease => true
  | .faultClear => true
  | .maskSet => true
  | .maskClear => true
  | .maskWrite => true
  | .groupWrite => true
  | .meterRead => true
  | .billFetch => true
  | .billRelease => true
  | .tableRead => true
  | .tableNext => true
  | .noticeClear => true

end Sys2Proof
end

