-- ==== Sys2Proof/Safety.lean ====
section
/-! DEFINITION. The terms in which statements speak of a run: an answered command, what an event may change, the laws that
every step keeps, and what a safe run is. -/

namespace Sys2Proof.Machine

/-! ### Outcomes -/

/-- An outcome is safe when the machine goes on. -/
def Safe (o : Host.Outcome State Fault Refusal) : Prop := ∃ t, o = .next t

/-! ### What an event changes -/

/-- The blocks of the device (00_scope.md, "Block overview"), and the boundaries owed to them. -/
inductive Block where
  | tb | owed | csc | cpi | bkc | psu | fcu | lmn | fra | svm | bq
deriving DecidableEq, Repr

/-- A block holds in one device what it holds in another. -/
def SameBlock (d d' : Device) : Block → Prop
  | .tb => d'.tb = d.tb
  | .owed => d'.owed = d.owed
  | .csc => d'.csc = d.csc
  | .cpi => d'.cpi = d.cpi
  | .bkc => d'.bkc = d.bkc
  | .psu => d'.psu = d.psu
  | .fcu => d'.fcu = d.fcu
  | .lmn => d'.lmn = d.lmn
  | .fra => d'.fra = d.fra
  | .svm => d'.svm = d.svm
  | .bq => d'.bq = d.bq

/-- Every block but the named ones is unchanged. -/
def OnlyChanges (bs : List Block) (d d' : Device) : Prop := ∀ b, b ∉ bs → SameBlock d d' b

/-- In the Control Port Interface nothing but sticky notice flags changes: no command word, no error block, no byte of a
parameter or response area, no enable set, no cursor. -/
def NoticesOnly (d d' : Device) : Prop :=
  (∀ q, window d' q = { window d q with sticky := (window d' q).sticky })
    ∧ d'.cpi.pointer = d.cpi.pointer ∧ d'.cpi.serving = d.cpi.serving ∧ d'.cpi.status = d.cpi.status
    ∧ d'.cpi.boot = d.cpi.boot ∧ d'.cpi.phase = d.cpi.phase

/-- Every sticky flag of every port is as before, with the classes `c` added. -/
def Notified (c : NoticeSet) (d d' : Device) : Prop := ∀ q, (window d' q).sticky = (window d q).sticky ||| c

/-- The records of the FRA but `r` are unchanged. -/
def OtherRecordsKept (r : Fin 49) (d d' : Device) : Prop := ∀ q, q ≠ r → record d' q = record d q

/-- The event `c` takes the machine to the device `d'`; the queue stays as it was. -/
abbrev Answers (c : Instr) (s : State) (d' : Device) : Prop := exec c s = .next ⟨d', s.pending⟩

/-- One boundary at an instant (R22, R28, R30): T advances by 1, the time-valid flag falls at the wrap, E counts from that
instant, a MARK with the new T modulo 256 goes out behind the earlier ones, and the boundary is handed to the BKC, the SVM and a monitoring LMN. -/
def BoundaryMade (instant : Nat) (d d' : Device) : Prop :=
  let t := d.tb.time + 1
  d'.tb.time = t ∧ d'.tb.valid = (d.tb.valid && decide (t ≠ 0#32)) ∧ d'.tb.elapsed = d'.tb.clock - instant
    ∧ d'.tb.marks = d.tb.marks ++ [withCrc [0x05#8, t.extractLsb' 0 8]]
    ∧ d'.owed.bkc = d.owed.bkc ++ [t] ∧ d'.owed.svm = d.owed.svm ++ [t]
    ∧ d'.owed.lmn = d.owed.lmn ++ (if d.lmn.monitoring then [t] else [])

/-- No boundary while the given milliseconds pass: T and the time-valid flag stay, no MARK goes out, none is handed on, and E goes
on. -/
def NoBoundary (passed : Nat) (d d' : Device) : Prop :=
  d'.tb.time = d.tb.time ∧ d'.tb.valid = d.tb.valid ∧ d'.tb.elapsed = d.tb.elapsed + passed ∧ d'.tb.marks = d.tb.marks
    ∧ d'.owed = d.owed

/-- An entry that differs and is not stuck asks for an order, in its class and at its number (R87, R88). -/
def AsksFor (d : Device) (cls number : Nat) (k : OrderKind) : Prop :=
  (∃ p : HandoffPort, number = p.val ∧ (port d p).stuck = false ∧ (port d p).confirmed ≠ desiredAttachment (port d p)
      ∧ ((cls = 1 ∧ desiredAttachment (port d p) = .park ∧ k = .portPark p)
        ∨ (∃ n, cls = 4 ∧ desiredAttachment (port d p) = .node n ∧ k = .portJoin p n)
        ∨ (cls = 5 ∧ desiredAttachment (port d p) = .test ∧ k = .portTest p)))
    ∨ (∃ n : FeedNode, number = n.val ∧ (node d n).stuck = false ∧ (node d n).confirmed ≠ desiredSource (node d n)
      ∧ ((∃ l, (node d n).state = .owned ∧ cls = (if (node d n).established then 2 else 3) ∧ (node d n).desired = some l
            ∧ k = .nodeSelect n l)
        ∨ (cls = 3 ∧ (node d n).state = .draining ∧ k = .nodeRelease n)))

/-- The reconciler's choice (R87, R88): the order that the lowest entry of the first class asks for; none when no entry
asks for one. -/
def ChosenOrder (d : Device) (choice : Option OrderKind) : Prop :=
  (choice = none → ∀ cls number k, ¬AsksFor d cls number k)
    ∧ ∀ k, choice = some k → ∃ cls number, AsksFor d cls number k
        ∧ ∀ cls' number' k', AsksFor d cls' number' k' → cls < cls' ∨ (cls = cls' ∧ number ≤ number')

/-- The first waiting booking of a protection lane whose working lane is failed, and its selector (R119). -/
def FirstInNeed (d : Device) (l : Lane) (w : Waiter) (y : Selector) : Prop :=
  ∃ pre post, (lane d l).waiting = pre ++ w :: post ∧ selectorAt d w.handle.slot = some y ∧ laneFailed d y.working = true
    ∧ ∀ v ∈ pre, ∀ x, selectorAt d v.handle.slot = some x → laneFailed d x.working = false

/-- The selector waits for the lane under the waiting booking's handle (R106). -/
def Awaits (l : Lane) (w : Waiter) (y : Selector) : Prop := y.state = .waiting ∧ y.protection = some l ∧ y.handle = w.handle

/-- A waiting booking is granted the lane (R107, R119): it leaves the list, enters ON_PROTECTION and holds the lane. -/
def Granted (l : Lane) (w : Waiter) (y : Selector) (d d' : Device) : Prop :=
  selectorAt d' w.handle.slot = some { y with state := .onProtection, timer := none }
    ∧ (lane d' l).holder = some w.handle
    ∧ (lane d' l).waiting = (lane d l).waiting.filter fun v => v.handle ≠ w.handle

/-- A lane becomes failed, or healthy, between two views of the PSU (R102). -/
def Fails (d d' : Device) (l : Lane) : Prop := laneFailed d l = false ∧ laneFailed d' l = true
def Recovers (d d' : Device) (l : Lane) : Prop := laneFailed d l = true ∧ laneFailed d' l = false

/-- The protection quarantine, failure and recovery of a lane (R102). -/
def ProtectionQuarantine (d d' : Device) (l : Lane) : Prop := laneQuarantined d l = false ∧ laneQuarantined d' l = true
def ProtectionFailure (d d' : Device) (l : Lane) : Prop := ¬ProtectionQuarantine d d' l ∧ Fails d d' l
def ProtectionRecovery (d d' : Device) (l : Lane) : Prop := ¬ProtectionQuarantine d d' l ∧ Recovers d d' l

/-- What a lane event makes of the selector `x` of the booking `b` with protection lane `p`: it becomes `x'` (R105 to R111, in
the order of R121). Lengths are read, and timers started, at the event (R103). -/
def SelectorTakes (d d' : Device) (b : Booking) (p : Lane) (x x' : Selector) : Prop :=
  let holdOff := b.holdOff.getD d'.csc.image.defaults.holdOff
  let wtr := b.wtr.getD d'.csc.image.defaults.wtr
  let clock := d'.tb.clock
  let fails : Prop := Fails d d' x.working
  let recovers : Prop := Recovers d d' x.working
  let failed : Prop := laneFailed d' x.working = true
  let quarantine : Prop := ProtectionQuarantine d d' p
  let failure : Prop := ProtectionFailure d d' p
  let recovery : Prop := ProtectionRecovery d d' p
  let lost : Prop := laneFailed d' p = true ∨ laneQuarantined d' p = true
  let alone : Prop := ∀ j y, selectorAt d j = some y → y.handle ≠ x.handle → y.protection ≠ some p
  let becomes (state : SelectorState) (timer : Option SelectorTimer) (both : Bool) : Prop :=
    x' = { x with state := state, timer := timer, bothFailed := both }
  let startsHoldOff : Prop :=
    (0 < holdOff → becomes .holdOff (some ⟨.holdOff, clock + holdOff⟩) false)
      ∧ (holdOff = 0 → lost → becomes .onWorking none true)
      ∧ (holdOff = 0 → ¬lost →
          ((lane d p).holder ≠ none → becomes .waiting none false) ∧ (alone → becomes .onProtection none false)
            ∧ (becomes .waiting none false ∨ becomes .onProtection none false))
  let startsReturn (both : Bool) : Prop :=
    (0 < holdOff → becomes .onProtection (some ⟨.returnTimer, clock + holdOff⟩) both)
      ∧ (holdOff = 0 → becomes .onWorking none both)
  let waitsOrStays : Prop :=
    (wtr = 0 → becomes .onProtection none false)
      ∧ (0 < wtr → becomes .waitRestore (some ⟨.waitToRestore, clock + wtr * 1000⟩) false)
  (x.state = .unprotected ∨ x.state = .forcedProtection ∨ x.state = .lockedWorking → x' = x)
    ∧ (x.state = .onWorking →
        (fails → startsHoldOff)
        ∧ (recovers → x' = { x with bothFailed := false })
        ∧ (¬fails → ¬recovers →
            (recovery ∧ x.bothFailed = true → (failed → startsHoldOff) ∧ (¬failed → x' = { x with bothFailed := false }))
            ∧ (¬(recovery ∧ x.bothFailed = true) → x' = x)))
    ∧ (x.state = .holdOff → (recovers → becomes .onWorking none x.bothFailed) ∧ (¬recovers → x' = x))
    ∧ (x.state = .waiting →
        (recovers → becomes .onWorking none x.bothFailed)
        ∧ (¬recovers → (¬recovery → x' = x) ∧ (recovery → x' = x ∨ becomes .onProtection none x.bothFailed)))
    ∧ (x.state = .onProtection →
        (fails ∨ failed →
          (quarantine ∨ failure → becomes .onProtection none true) ∧ (recovery → becomes .onProtection none false))
        ∧ (fails → ¬quarantine → ¬failure → ¬recovery →
            (x.timer ≠ none → becomes .onProtection none true) ∧ (x.timer = none → x' = x))
        ∧ (recovers →
            (¬lost → waitsOrStays)
            ∧ (laneFailed d' p = true → laneQuarantined d' p = true → becomes .onWorking none false)
            ∧ (laneFailed d' p = true → laneQuarantined d' p = false → startsReturn false))
        ∧ (¬recovers → ¬failed →
            (quarantine → becomes .onWorking none x.bothFailed) ∧ (failure → startsReturn x.bothFailed)
              ∧ (recovery → waitsOrStays))
        ∧ (¬fails → ¬recovers → ¬quarantine → ¬failure → ¬recovery → x' = x))
    ∧ (x.state = .waitRestore →
        (fails →
          (quarantine ∨ failure → becomes .onProtection none true) ∧ (recovery → becomes .onProtection none false)
            ∧ (¬quarantine → ¬failure → ¬recovery → becomes .onProtection none x.bothFailed))
        ∧ (¬fails →
            (quarantine → becomes .onWorking none x.bothFailed) ∧ (failure → startsReturn x.bothFailed)
              ∧ (¬quarantine → ¬failure → x' = x)))

/-- One waiter stands ahead of another (R118): of its own priority or higher; and of two of one priority, one that joined in
the event stands ahead only of one that joined in the event too, in slot order. `stood` says who stood on the list before. -/
def StandsAhead (stood : Handle → Prop) (u v : Waiter) : Prop :=
  v.priority ≤ u.priority
    ∧ (v.priority = u.priority → ¬stood u.handle → ¬stood v.handle ∧ u.handle.slot < v.handle.slot)

/-- One event of the FRA at the PSU (R101, R102, R105 to R111, R118, R119, R121): every selector takes its lane events; each
list stays in order, those that stood on it in their order; a protection recovery of a lane without a holder gives it to the
first waiting booking whose working lane is still failed, unless a booking whose hold-off of 0 ended in the event took it;
and a change of a selected lane or an onset of BOTH_FAILED raises the PROTECTION notice, the change with the desired source of
the booking's node. -/
def LanesTaken (d d' : Device) : Prop :=
  (∀ i, selectorAt d i = none → selectorAt d' i = none)
    ∧ (∀ i x b, selectorAt d i = some x → bookingAt d i = some b → ∃ x', selectorAt d' i = some x'
        ∧ (x.protection = none → x' = x) ∧ (∀ p, x.protection = some p → SelectorTakes d d' b p x x')
        ∧ (selectedLane x' ≠ selectedLane x ∨ (x.bothFailed = false ∧ x'.bothFailed = true) →
            ∀ q, (window d' q).sticky &&& protectionNotice = protectionNotice)
        ∧ (∀ n, selectedLane x' ≠ selectedLane x → b.node = some n →
            (∀ j c, j ≠ i → bookingAt d j = some c → c.node ≠ some n) → (node d' n).desired = some (selectedLane x')))
    ∧ (∀ l, (let stood (h : Handle) : Prop := ∃ w ∈ (lane d l).waiting, w.handle = h
         (lane d' l).waiting.Pairwise (StandsAhead stood)
          ∧ ∃ ws, List.Sublist ws (lane d l).waiting ∧ List.Sublist ws (lane d' l).waiting
              ∧ ∀ w ∈ (lane d' l).waiting, stood w.handle → w ∈ ws))
    ∧ (∀ l w y, ProtectionRecovery d d' l → (lane d l).holder = none →
        FirstInNeed { d with psu := { d.psu with failed := d'.psu.failed } } l w y →
        (lane d' l).holder = some w.handle
          ∨ ∃ j z, selectorAt d j = some z ∧ z.state = .onWorking ∧ z.protection = some l ∧ Fails d d' z.working
              ∧ (lane d' l).holder = some z.handle)

/-- An onset, on a trunk's record, of an unmasked source that carries QUARANTINE moves the trunk to QUARANTINED, with the
onset of QUARANTINED (R150, R152); with no such onset the service state stays. -/
def OnsetMoves (t : Trunk) (d d' : Device) : Prop :=
  let x := record d (trunkRecord t)
  let x' := record d' (trunkRecord t)
  let onset : Prop := ∃ i : Fin 22, i.val < 8 ∧ d.csc.image.actions.get i = .quarantine ∧ x.mask.getLsbD i.val = false
    ∧ x.present.getLsbD i.val = false ∧ x'.present.getLsbD i.val = true
  (onset → (d'.fra.trunks.get t).service = .quarantined
      ∧ ((d.fra.trunks.get t).service = .normal → hasSource x'.present srcQuarantined = true
          ∧ (hasSource x.present srcQuarantined = false → hasSource x'.latched srcQuarantined = true)))
    ∧ (¬onset → (d'.fra.trunks.get t).service = (d.fra.trunks.get t).service)

/-- An event of one trunk: its onsets move its service state (R150, R152), and the service states of the other trunks stay. -/
def OnsetQuarantines (t : Trunk) (d d' : Device) : Prop :=
  OnsetMoves t d d' ∧ ∀ u, u ≠ t → (d'.fra.trunks.get u).service = (d.fra.trunks.get u).service

/-- How many holding bookings that satisfy `q` have an instant in their reserved interval (R35, R44, R47). -/
def holdingAt (d : Device) (x : Nat) (q : Booking → Bool) : Nat :=
  (bookings d).countP fun y => holds y.2 && q y.2 && containsInstant (intervalFirst y.2) (intervalEnd y.2) x

/-! ### Settings as they are stored (R6, R9) -/

/-- A setting without a step: the low bound below the range, the high bound above it, and itself within. -/
def Clamped (low high v x : Int) : Prop :=
  (v < low → x = low) ∧ (high < v → x = high) ∧ (low ≤ v → v ≤ high → x = v)

/-- A calibration offset: -75 to +75 tenths, rounded toward zero to a multiple of 5. -/
def OffsetStored (v x : Int) : Prop :=
  x % 5 = 0 ∧ (v < -75 → x = -75) ∧ (75 < v → x = 75)
    ∧ (0 ≤ v → v ≤ 75 → x ≤ v ∧ v < x + 5) ∧ (-75 ≤ v → v ≤ 0 → v ≤ x ∧ x < v + 5)

/-- A threshold profile, from its five raw settings. -/
def ProfileStored (warnLow alarmLow alarmHigh : Int) (h f : Nat) (x : Profile) : Prop :=
  Clamped (-400) 100 warnLow x.warnLow ∧ Clamped (-400) 100 alarmLow x.alarmLow ∧ Clamped (-400) 100 alarmHigh x.alarmHigh
    ∧ Clamped 5 30 h x.h ∧ Clamped 1 8 f x.f

/-- A tariff class, from its six raw settings. -/
def TariffStored (rb fo co cd mmin us : Nat) (x : Tariff) : Prop :=
  Clamped 0 65535 rb x.rb ∧ Clamped 100 400 fo x.fo ∧ Clamped 0 300 co x.co ∧ Clamped 0 100 cd x.cd
    ∧ Clamped 0 240 mmin x.mmin ∧ Clamped 0 3600 us x.us

/-- The DEFAULTS settings, from the raw value of each field: a hold-off is rounded down to a multiple of 10, and a WTR of 1 to
29 becomes 30. -/
def DefaultsStored (v : Nat → Nat) (x : Defaults) : Prop :=
  (x.holdOff % 10 = 0 ∧ (1000 < v 0 → x.holdOff = 1000) ∧ (v 0 ≤ 1000 → x.holdOff ≤ v 0 ∧ v 0 < x.holdOff + 10))
    ∧ ((v 1 = 0 → x.wtr = 0) ∧ (1 ≤ v 1 → Clamped 30 900 (v 1) x.wtr))
    ∧ Clamped 0 300 (v 2) x.releaseGuard ∧ Clamped 1 15 (v 3) x.flapLimit ∧ Clamped 4 10 (v 4) x.flapExponent
    ∧ Clamped 5 250 (v 5) x.fabricTimeout ∧ Clamped 0 600 (v 6) x.overrunWarning

/-- An action as it is stored for a source (R6): PROTECT for LOS, LOW_ALARM, HIGH_ALARM and FRAME_LOSS alone, QUARANTINE for
LOS, LOW_ALARM and FLAP_LIMIT alone; NOTIFY in place of one that is not allowed. -/
def ActionStored (i : Fin 22) (a x : Action) : Prop :=
  let allowed : Prop := a = .notify ∨ (a = .protect ∧ i.val ∈ [0, 2, 3, 4]) ∨ (a = .quarantine ∧ i.val ∈ [0, 2, 7])
  (allowed → x = a) ∧ (¬allowed → x = .notify)

/-! ### Metering -/

/-- A recipient's record after its pending run is resolved (R170): a severe run is booked as severe, a recovery run as
unavailable, and the run is empty. -/
def settledMeter (r : RecipientMeter) : RecipientMeter :=
  { r with
    run := 0, runClean := 0, runErrored := 0, runSource := 0
    meters :=
      match r.availability with
      | .available => { r.meters with severe := r.meters.severe + r.run }
      | .unavailable => { r.meters with unavailable := r.meters.unavailable + r.run } }

/-- The completion of CLEAR_ALL ends start-up (R98, R198); in any other phase nothing of the ports but sticky flags changes. -/
def StartUpEnds (d d' : Device) : Prop :=
  (d.cpi.phase = .clearAll → d'.cpi.phase = .operating ∧ d'.cpi.status = d.cpi.boot)
    ∧ (d.cpi.phase ≠ .clearAll → NoticesOnly d d')

/-- No entry's stuck mark changes. -/
def MarksKept (d d' : Device) : Prop :=
  (∀ n, (node d' n).stuck = (node d n).stuck) ∧ ∀ p, (port d' p).stuck = (port d p).stuck

/-- A snapshot that waits for a second of a trunk takes its lane's grade and the unmonitored mark (R164). -/
def gradedBy (t : Trunk) (c : ClosedSecond) (x : Snapshot) : Snapshot :=
  match x.lane, x.graded with
  | some l, none =>
    if trunkOf l = t ∧ x.second = c.second then { x with graded := some ⟨c.grades.get (laneIndex l), c.unmonitored⟩ } else x
  | _, _ => x

/-- A snapshot that waits for a second that closes as missing is graded from the end state of its trunk (R138, R164). -/
def gradedMissing (d : Device) (x : Snapshot) : Snapshot :=
  match x.lane.bind fun l => (line d (trunkOf l)).awaited.map fun a => (l, a) with
  | none => x
  | some (l, a) =>
    let grade : Grade := if a.los = true ∨ hasLane a.frameLoss (laneIndex l) = true then .severe else .clean
    if x.second = a.second ∧ x.graded = none then { x with graded := some ⟨grade, true⟩ } else x

/-- The snapshot `x` of second `n` of a booking, with its metering record (R163, R164). -/
def SnapshotOf (d : Device) (n : Word) (b : Booking) (m : MeterRecord) (x : Snapshot) : Prop :=
  x.second = n ∧ x.switchHit = m.switchMark
    ∧ (∀ l, x.lane = some l ↔ ∃ f, m.node = some f ∧ (node d f).confirmed = .lane l)
    ∧ x.views.length = b.recipients.length
    ∧ (∀ (k : Nat) p v, b.recipients[k]? = some p → x.views[k]? = some v →
        (v.connected = true ↔ ∃ f, m.node = some f ∧ (port d p).confirmed = .node f)
          ∧ v.txFault = (d.lmn.transmitters.get p).txFault)
    ∧ (x.lane = none → x.defect = none ∧ x.graded = none)
    ∧ ∀ l, x.lane = some l →
        x.defect = some ⟨(line d (trunkOf l)).los, hasLane (line d (trunkOf l)).frameLoss (laneIndex l)⟩
          ∧ (∀ c, (line d (trunkOf l)).lastClosed = some c → c.second = n →
              x.graded = some ⟨c.grades.get (laneIndex l), c.unmonitored⟩)
          ∧ ((∀ c, (line d (trunkOf l)).lastClosed = some c → c.second ≠ n) → x.graded = none)

/-- The record of booking `b` has come to `m` (R165): the booking and its record stand so. A SETTLING booking whose seconds are
all taken and applied is settled (R170, R176): its pending runs are resolved, it is charged in the normal form, and it is
UNBILLED and on the unbilled list, or, where that list was empty, its records are already placed and its slot is FREE. -/
def MeteredTo (d d' : Device) (i : SlotId) (b : Booking) (m : MeterRecord) : Prop :=
  let complete : Prop := ∃ c, b.closeTime = some c ∧ (c ≤ b.start ∨ c ≤ m.taken.toNat) ∧ m.queue = []
  let final := m.recipients.map settledMeter
  let charges := final.map (normalCharge b)
  (b.state ≠ .settling ∨ ¬complete → bookingAt d' i = some b ∧ d'.svm.records.get i = some m)
    ∧ (b.state = .settling → complete →
        (bookingAt d' i = some { b with state := .unbilled, charges := charges } ∧ i ∈ d'.bkc.unbilled
            ∧ d'.svm.records.get i = some { m with recipients := final })
          ∨ (d.bkc.unbilled = [] ∧ d'.svm.records.get i = none
            ∧ d'.bkc.slots.get i = ⟨(d.bkc.slots.get i).generation + 1, none⟩
            ∧ ∃ k, billRecords d i b (d.bq.nextSerial + BitVec.ofNat 32 k) (b.recipients.zip charges)
                <+: d'.bq.queue.drop (d.bq.queue.length + k)))

/-- The booking in slot `i` becomes UNBILLED in the event, as `b` with its charges and with the record `m` (R67, R176, R184).
Where the unbilled list was empty and the queue has room, its records stand behind the queue with the next serials and its
slot is FREE; otherwise it stands at the tail of the list and the queue is as it was. -/
def BecomesUnbilled (d d' : Device) (i : SlotId) (b : Booking) (m : Option MeterRecord) : Prop :=
  let records := billRecords d i b d.bq.nextSerial (b.recipients.zip b.charges)
  let fits : Prop := d.bkc.unbilled = [] ∧ d.bq.queue.length + b.recipients.length ≤ 512
  (fits → d'.bq = ⟨d.bq.queue ++ records, d.bq.nextSerial + BitVec.ofNat 32 records.length⟩ ∧ d'.bkc.unbilled = []
      ∧ d'.bkc.slots.get i = ⟨(d.bkc.slots.get i).generation + 1, none⟩ ∧ d'.svm.records.get i = none)
    ∧ (¬fits → d'.bq = d.bq ∧ d'.bkc.unbilled = d.bkc.unbilled ++ [i]
      ∧ d'.bkc.slots.get i = ⟨(d.bkc.slots.get i).generation, some b⟩ ∧ d'.svm.records.get i = m)

/-- The records of bookings placed one after another, with consecutive serials (R182, R184). -/
def placedRecords (d : Device) : Word → List SlotId → List BillRecord
  | _, [] => []
  | serial, i :: rest =>
    match bookingAt d i with
    | none => placedRecords d serial rest
    | some b =>
      let records := billRecords d i b serial (b.recipients.zip b.charges)
      records ++ placedRecords d (serial + BitVec.ofNat 32 records.length) rest

/-- What one valid report does to a filter (R134): `counting` says that it counts towards the condition's change. -/
def FilterStep (n : Nat) (counting : Prop) (f f' : Filter) : Prop :=
  (counting → n ≤ f.run + 1 → f'.present = !f.present ∧ f'.run = 0)
    ∧ (counting → f.run + 1 < n → f'.present = f.present ∧ f'.run = f.run + 1)
    ∧ (¬counting → f'.present = f.present ∧ f'.run = 0)

/-! ### An answered command (R193) -/

/-- The engine takes command `c` from port `p`, in RUNNING or DEFAULTS, with a role the command needs (R193, R194). -/
abbrev Takes (d : Device) (p : PortId) (c : Command) : Prop :=
  chosenPort d = some p ∧ (postedCode d p).bind commandOf = some c
    ∧ d.cpi.status ≠ .halted ∧ permitted (rolesOf d p) c = true

/-- The command taken from port `p` has completed with a reply (R193): its window shows it, its parameter area and enable
set are as they were, the other windows are as they were but for sticky flags, the engine is free, and the rotation points
to the next port. -/
def Answered (p : PortId) (r : Reply) (d d' : Device) : Prop :=
  (window d' p).command = (if r.result = .done then .done else .failed)
    ∧ some (window d' p).code = postedCode d p
    ∧ (window d' p).result = some r.result ∧ (window d' p).field = r.field
    ∧ (∀ i, i < Config.responseBytes → Memory.read windowBlank (window d' p).response i = r.response.getD i 0#8)
    ∧ (window d' p).params = (window d p).params ∧ (window d' p).enable = (window d p).enable
    ∧ (∀ q, q ≠ p → window d' q = { window d q with sticky := (window d' q).sticky })
    ∧ d'.cpi.pointer = nextPort p ∧ d'.cpi.serving = none
    ∧ d'.cpi.status = d.cpi.status ∧ d'.cpi.boot = d.cpi.boot ∧ d'.cpi.phase = d.cpi.phase

/-- Port `p` keeps its cursor. -/
def CursorKept (p : PortId) (d d' : Device) : Prop := (window d' p).cursor = (window d p).cursor

/-- The sticky flags after a command of port `p`: COMMAND on that port, and the classes `c` on every port. -/
def CommandNotified (p : PortId) (c : NoticeSet) (d d' : Device) : Prop :=
  ∀ q, (window d' q).sticky = (window d q).sticky ||| c ||| (if q = p then commandNotice else 0#7)

/-- A command refused, or one that only reads: its window answers, and nothing else of the part changes. -/
def AnsweredOnly (p : PortId) (r : Reply) (d d' : Device) : Prop :=
  OnlyChanges [.cpi] d d' ∧ Answered p r d d' ∧ CursorKept p d d' ∧ CommandNotified p 0#7 d d'

/-! ### The laws every step keeps -/

/-- An addressed buffer is in canonical form and lies in its area. -/
def AreaCanonical (blank : Byte) (size : Nat) (m : Memory) : Prop :=
  Memory.wf blank m = true ∧ ∀ e ∈ m, e.1 < size

/-- The parameter and response areas and the flash image area (R190, R10). -/
def AreasCanonical (d : Device) : Prop :=
  (∀ p, AreaCanonical windowBlank Config.parameterBytes (window d p).params
      ∧ AreaCanonical windowBlank Config.responseBytes (window d p).response)
    ∧ AreaCanonical flashBlank imageSize d.csc.flash

/-- The flap counters (R131), and that nothing is monitored or counted before the start-up load. -/
def FlapLaw (d : Device) : Prop :=
  (∀ t, (line d t).flapCounter ≤ 15
      ∧ ((line d t).flapLimit = true ↔ d.csc.image.defaults.flapLimit < (line d t).flapCounter))
    ∧ (d.cpi.phase = .selfCheck ∨ d.cpi.phase = .load →
        d.lmn.monitoring = false ∧ ∀ t, (line d t).flapCounter = 0)

/-- A threshold profile in its ranges and in order (R4, R9). -/
def ProfileInRange (p : Profile) : Prop :=
  -400 ≤ p.alarmLow ∧ p.alarmLow < p.warnLow ∧ p.warnLow < p.alarmHigh ∧ p.alarmHigh ≤ 100
    ∧ 5 ≤ p.h ∧ p.h ≤ 30 ∧ 1 ≤ p.f ∧ p.f ≤ 8

/-- A tariff class in its ranges (R7, R9). -/
def TariffInRange (x : Tariff) : Prop :=
  x.rb ≤ 65535 ∧ 100 ≤ x.fo ∧ x.fo ≤ 400 ∧ x.co ≤ 300 ∧ x.cd ≤ 100 ∧ x.mmin ≤ 240 ∧ x.us ≤ 3600

/-- The DEFAULTS settings in their ranges and on their steps (R8, R9). -/
def DefaultsInRange (x : Defaults) : Prop :=
  x.holdOff ≤ 1000 ∧ x.holdOff % 10 = 0 ∧ (x.wtr = 0 ∨ (30 ≤ x.wtr ∧ x.wtr ≤ 900)) ∧ x.releaseGuard ≤ 300
    ∧ 1 ≤ x.flapLimit ∧ x.flapLimit ≤ 15 ∧ 4 ≤ x.flapExponent ∧ x.flapExponent ≤ 10
    ∧ 5 ≤ x.fabricTimeout ∧ x.fabricTimeout ≤ 250 ∧ x.overrunWarning ≤ 600

/-- The RAM image in range (R3 to R9, R12): no venue has more than four trunks, some port holds MAINTAIN, every profile is
in order, every setting is in its range, and every action is allowed for its source. -/
def ImageInRange (img : Image) : Prop :=
  (∀ v : Venue, ((List.finRange 16).countP fun t => decide (img.venueMap.get t = some v)) ≤ 4)
    ∧ (∃ p, (img.roles.get p).maintain = true)
    ∧ (∀ n, ProfileInRange (img.profiles.get n))
    ∧ (∀ t, -75 ≤ img.calibration.get t ∧ img.calibration.get t ≤ 75 ∧ img.calibration.get t % 5 = 0)
    ∧ (∀ i, allowedAction i (img.actions.get i) = img.actions.get i)
    ∧ (∀ n, TariffInRange (img.tariffs.get n))
    ∧ DefaultsInRange img.defaults

/-- The billing queue (R183, R185): at most 512 records, their serials consecutive up to the next serial, and
BILL_QUEUE_HIGH present exactly from 448 records on. -/
def QueueLaw (d : Device) : Prop :=
  d.bq.queue.length ≤ Config.queueCapacity
    ∧ (∀ k r, d.bq.queue[k]? = some r → r.serial = d.bq.nextSerial - BitVec.ofNat 32 (d.bq.queue.length - k))
    ∧ (hasSource (record d deviceRecord).present srcBillQueueHigh = true ↔ Config.queueHigh ≤ d.bq.queue.length)

/-- The meters of a recipient (R167 to R169): the graded seconds and the pending run make up the metered ones. -/
def MeterLaw (r : RecipientMeter) : Prop :=
  r.meters.clean + r.meters.errored + r.meters.severe + r.meters.unavailable + r.meters.source + r.run = r.meters.metered
    ∧ r.run ≤ 9 ∧ r.meters.overrun ≤ r.meters.metered ∧ r.meters.unmonitored ≤ r.meters.metered
    ∧ (match r.availability with
        | .available => r.runClean = 0 ∧ r.runErrored = 0 ∧ r.runSource = 0
        | .unavailable => r.runClean + r.runErrored + r.runSource = r.run)

/-- The meters of every recipient of every metering record. -/
def MetersLaw (d : Device) : Prop := ∀ i m, d.svm.records.get i = some m → ∀ r ∈ m.recipients, MeterLaw r

/-- A command word reads TAKEN on the port the engine serves, and on no other (R193). -/
def TakenLaw (d : Device) : Prop := ∀ p, (window d p).command = .taken ↔ d.cpi.serving = some p

/-- The unbilled list holds the UNBILLED bookings, each once (R68). -/
def UnbilledLaw (d : Device) : Prop :=
  d.bkc.unbilled.Nodup
    ∧ ∀ i, i ∈ d.bkc.unbilled ↔ ((bookingAt d i).map fun b => b.state) = some .unbilled

/-- The fault record of a trunk shows its line record and its service state (R127, R134, R138, R145, R150). -/
def LineRecordLaw (d : Device) : Prop :=
  ∀ t, (record d (trunkRecord t)).present
        = lineConditions (line d t) ||| (if (d.fra.trunks.get t).service = .quarantined then srcQuarantined else 0#22)
      ∧ (d.fra.trunks.get t).frameLoss = (line d t).frameLoss ∧ (d.fra.trunks.get t).upstream = (line d t).upstream

/-- The PSU's view is the signal-fail and the service states as they stand (R102, R149). -/
def LaneViewLaw (d : Device) : Prop :=
  (∀ l, laneFailed d l = signalFail d l)
    ∧ ∀ t, d.psu.quarantined.get t = decide ((d.fra.trunks.get t).service = .quarantined)

/-- The selectors (R100, R103, R111, R117 to R119). A booking has one exactly while it is ARMED, LIVE or OVERRUN, with the
booking's handle and lanes; its timer, its lanes and BOTH_FAILED fit its state. The holder of a protection lane is the booking
whose selector holds it; its list holds the bookings that wait for it, each once, highest priority first; and a lane that is
free and healthy has an empty list. -/
def SelectorLaw (d : Device) : Prop :=
  (∀ i, (selectorAt d i ≠ none ↔ ∃ b, bookingAt d i = some b ∧ running b = true)
      ∧ ∀ x b, selectorAt d i = some x → bookingAt d i = some b →
          x.handle = handleAt d i ∧ x.working = b.working ∧ x.protection = b.protection)
    ∧ (∀ i x, selectorAt d i = some x →
        (x.state = .unprotected ↔ x.protection = none)
        ∧ (x.state = .holdOff ↔ ∃ e, x.timer = some ⟨.holdOff, e⟩)
        ∧ (x.state = .waitRestore ↔ ∃ e, x.timer = some ⟨.waitToRestore, e⟩)
        ∧ (∀ e, x.timer = some ⟨.returnTimer, e⟩ → x.state = .onProtection ∧ laneFailed d x.working = false)
        ∧ (x.state = .holdOff ∨ x.state = .waiting → laneFailed d x.working = true)
        ∧ (x.state = .waitRestore → laneFailed d x.working = false)
        ∧ (x.bothFailed = true → (x.state = .onWorking ∨ x.state = .onProtection) ∧ laneFailed d x.working = true)
        ∧ (x.state = .onWorking → laneFailed d x.working = true → x.bothFailed = true)
        ∧ ∀ l, x.protection = some l →
            (∀ e, x.timer = some ⟨.returnTimer, e⟩ → laneFailed d l = true)
            ∧ (x.state = .waitRestore → laneFailed d l = false)
            ∧ (x.state = .onProtection → x.bothFailed = true → laneFailed d l = true))
    ∧ ∀ l,
        (∀ h, (lane d l).holder = some h ↔
          ∃ x, selectorAt d h.slot = some x ∧ x.handle = h ∧ x.protection = some l ∧ holdsLane x.state = true)
        ∧ (∀ h, (∃ w ∈ (lane d l).waiting, w.handle = h) ↔
          ∃ x, selectorAt d h.slot = some x ∧ x.handle = h ∧ x.protection = some l ∧ x.state = .waiting)
        ∧ ((lane d l).waiting.map fun w => w.handle).Nodup
        ∧ (lane d l).waiting.Pairwise (fun u v => v.priority ≤ u.priority)
        ∧ ((lane d l).holder = none → laneFailed d l = false → (lane d l).waiting = [])

/-- Two bookings that hold reservations over a common instant share no working lane and no port, neither protects with
the other's working lane, and two that share a protection lane work on different trunks (R41, R43, R46). -/
def CalendarLaw (d : Device) : Prop :=
  ∀ i j b c, i ≠ j → bookingAt d i = some b → bookingAt d j = some c → holds b = true → holds c = true →
    intervalFirst b < intervalEnd c → intervalFirst c < intervalEnd b →
    b.working ≠ c.working ∧ c.protection ≠ some b.working ∧ (∀ p ∈ b.recipients, p ∉ c.recipients)
      ∧ ∀ l, b.protection = some l → c.protection = some l → trunkOf b.working ≠ trunkOf c.working

/-- The order in flight selects or releases a node, or joins a port to it. -/
def concerns (k : OrderKind) (n : FeedNode) : Prop :=
  (∃ l, k = .nodeSelect n l) ∨ k = .nodeRelease n ∨ ∃ p, k = .portJoin p n

/-- A port is confirmed on a node, or an order in flight joins it to the node. -/
def joining (d : Device) (p : HandoffPort) (n : FeedNode) : Prop :=
  (port d p).confirmed = .node n ∨ ∃ o, d.fcu.inFlight = some o ∧ o.kind = .portJoin p n

/-- The laws of the feed nodes (R81, R95): a FREE node has no source and no port on it; a node is OWNED by a running booking
that knows it; a claim names an OWNED node and a port its owner lists; and no port stands on, or is on its way to, a node
OWNED by a booking that does not list it. -/
def FabricLaw (d : Device) : Prop :=
  (∀ n, (node d n).state = .free → (node d n).confirmed = .none
      ∧ (∀ p, (port d p).confirmed ≠ .node n ∧ (port d p).confirmed ≠ .unknown)
      ∧ ∀ o, d.fcu.inFlight = some o → ¬concerns o.kind n)
    ∧ (∀ n, (node d n).state = .owned ↔ (node d n).owner ≠ none)
    ∧ (∀ n h, (node d n).owner = some h → ∃ b, bookingOf d h = some b ∧ running b = true ∧ b.node = some n
        ∧ ∀ p, joining d p n → p ∈ b.recipients)
    ∧ (∀ i b n, bookingAt d i = some b → b.node = some n → (node d n).owner = some (handleAt d i))
    ∧ (∀ p c, (port d p).live = some c → (node d c.node).owner = some c.handle
        ∧ ∃ b, bookingOf d c.handle = some b ∧ p ∈ b.recipients)
    ∧ d.bkc.nodeWait.Nodup
    ∧ (∀ i, i ∈ d.bkc.nodeWait → ∃ b, bookingAt d i = some b ∧ running b = true ∧ b.node = none)

/-- The five booked meters rise by the given numbers of seconds (R168, R169). -/
def Books (m m' : Meters) (clean errored severe unavailable source : Nat) : Prop :=
  m'.clean = m.clean + clean ∧ m'.errored = m.errored + errored ∧ m'.severe = m.severe + severe
    ∧ m'.unavailable = m.unavailable + unavailable ∧ m'.source = m.source + source

/-- 1 where two grades are equal. -/
def one (g h : Grade) : Nat := if g = h then 1 else 0

/-! ### Node reuse (R59, R60, R95) -/

/-- A node comes free in an event (R95): it was DRAINING, or becomes so there, its confirmed source is NONE, no port's confirmed
attachment is the node or UNKNOWN, and the order in flight as the rule is evaluated does not name it. -/
def ComesFree (draining : FeedNode → Prop) (order : Option InFlight) (d' : Device) (n : FeedNode) : Prop :=
  draining n ∧ (node d' n).confirmed = .none
    ∧ (∀ p, (port d' p).confirmed ≠ .node n ∧ (port d' p).confirmed ≠ .unknown)
    ∧ ∀ o, order = some o → o.kind ≠ .clearAll ∧ ¬concerns o.kind n

/-- Node `n` is granted to the waiting booking `b` of slot `i` (R60, R160). -/
def NodeGranted (d d' : Device) (n : FeedNode) (i : SlotId) (b : Booking) : Prop :=
  (node d' n).state = .owned ∧ (node d' n).owner = some (handleAt d i) ∧ (node d' n).established = false
    ∧ (∀ x, selectorAt d' i = some x → (node d' n).desired = some (selectedLane x))
    ∧ bookingAt d' i = some { b with node := some n, nodeWait := false }
    ∧ (∀ m, d.svm.records.get i = some m → ∃ m', d'.svm.records.get i = some m' ∧ m'.node = some n
        ∧ m'.queue = m.queue ∧ m'.recipients = m.recipients)
    ∧ ∀ p ∈ b.recipients, (∀ j c, j ≠ i → j ∈ d.bkc.nodeWait → bookingAt d j = some c → p ∉ c.recipients) →
        (port d' p).live = some ⟨handleAt d i, n⟩

/-- The nodes that come free in an event, and their grant (R59, R60, R95). In increasing node order each goes to the booking
then at the head of the node wait list `wait`, and stays FREE once the list is empty; the bookings left on the list, and the
other nodes, are as they were. -/
def NodesReused (draining : FeedNode → Prop) (order : Option InFlight) (wait : List SlotId) (d d' : Device) : Prop :=
  ∃ freed : List FeedNode, freed.Pairwise (fun m n => m < n) ∧ (∀ n, n ∈ freed ↔ ComesFree draining order d' n)
    ∧ d'.bkc.nodeWait = wait.drop freed.length
    ∧ (∀ i ∈ wait.drop freed.length, bookingAt d' i = bookingAt d i)
    ∧ (∀ (k : Nat) n i b, freed[k]? = some n → wait[k]? = some i → bookingAt d i = some b → NodeGranted d d' n i b)
    ∧ (∀ (k : Nat) n, freed[k]? = some n → wait.length ≤ k → (node d' n).state = .free ∧ (node d' n).owner = none)
    ∧ (∀ n, n ∉ freed → draining n → (node d' n).state = .draining ∧ (node d' n).owner = none)
    ∧ (∀ n, ¬draining n → (node d' n).state = (node d n).state ∧ (node d' n).owner = (node d n).owner)
    ∧ (freed ≠ [] → wait ≠ [] → ∀ q, (window d' q).sticky &&& bookingNotice = bookingNotice)

/-- A law of the device that every step keeps. -/
def Kept (law : Device → Prop) : Prop := ∀ s t, law s.dev → step s = .next t → law t.dev

end Sys2Proof.Machine
end

