-- ==== Sys2Proof/Certificates/Slice0/Obligations.lean ====
section
/-! DEFINITION. The statements for the provers. Each docstring names the rules of spec/ it speaks of; OBLIGATIONS.json lists
them. `Answers c s d'` says that the event `c` completes and leaves the device `d'`; `OnlyChanges`, `NoticesOnly` and
`Answered` (Safety.lean) are the frames. -/

open Sys2Proof Sys2Proof.Machine

/-! ### The step -/

/-- A step takes the command at the front of the queue. -/
def Obligations.StepTakesFrontCommand : Prop :=
  ∀ (d : Device) (c : Instr) (rest : List Instr), step ⟨d, c :: rest⟩ = exec c ⟨d, rest⟩

/-- Every command and event completes and leaves the queue as it was; only a master write outside the words of a window
stops (R190, R191; the stop is the model's, log entry 7). That an event whose condition does not hold completes without effect
is the model's choice (log entry 4). -/
def Obligations.OnlyWritesOutsideWordsStop : Prop :=
  ∀ (c : Instr) (s : State),
    (∃ d', Answers c s d')
      ∨ (∃ p offset v, c = .windowWrite p offset v ∧ 2048 ≤ offset ∧ exec c s = .fault .outsideWindow)
      ∨ (∃ p offset v, c = .windowWrite p offset v ∧ offset < 2048 ∧ offset % 4 ≠ 0 ∧ exec c s = .fault .notAWord)

/-! ### Laws that every step keeps -/

/-- The parameter areas, the response areas and the flash image area keep their canonical form and stay within their size
(R190, R10); and a command word reads TAKEN exactly on the port whose command the engine serves (R193). -/
def Obligations.WindowsKeepTheirForm : Prop := Kept fun d => AreasCanonical d ∧ TakenLaw d

/-- The flap counter stays within 0-15 and FLAP_LIMIT is present exactly while it exceeds the limit (R131). -/
def Obligations.FlapLawKept : Prop := Kept FlapLaw

/-- The RAM image stays in range (R3 to R9, R12). -/
def Obligations.ImageStaysInRange : Prop := Kept fun d => ImageInRange d.csc.image

/-- The billing queue keeps its capacity, its consecutive serials and BILL_QUEUE_HIGH (R183, R185). -/
def Obligations.QueueLawKept : Prop := Kept QueueLaw

/-- The meters and the pending run of every recipient make up its metered seconds (R167). -/
def Obligations.MetersLawKept : Prop := Kept MetersLaw

/-- The laws of the feed nodes (R81, R95) and of the unbilled list (R68): among them, a FREE node has no source and no port on
it, and no port stands on a node OWNED by a booking that does not list it. -/
def Obligations.FabricLawKept : Prop := Kept fun d => UnbilledLaw d ∧ FabricLaw d

/-- A trunk's fault record shows its line record and service state, and the PSU's view of the lanes is the signal-fail that
the fault records give (R127, R149, R150, R152). The selectors fit the bookings and the lanes, and the protection records the
selectors (R100, R111, R117 to R119); with them, the unbilled list holds the UNBILLED bookings alone (R68). -/
def Obligations.DefectLawsKept : Prop :=
  Kept fun d => UnbilledLaw d ∧ LineRecordLaw d ∧ LaneViewLaw d ∧ SelectorLaw d

/-- Bookings that hold reservations over a common instant never conflict (R41, R43, R46). -/
def Obligations.CalendarLawKept : Prop := Kept CalendarLaw

/-- The state after reset meets every law, and holds the values the manual gives (R20, R32, R33, R59, R68, R80, R82, R100,
R124, R125, R160, R183, R190, R194). The image is the factory image (log entry 3). -/
def Obligations.ResetMeetsLaws : Prop :=
  let d := State.reset.dev
  AreasCanonical d ∧ FlapLaw d ∧ ImageInRange d.csc.image ∧ QueueLaw d ∧ MetersLaw d ∧ TakenLaw d ∧ UnbilledLaw d
    ∧ FabricLaw d ∧ LineRecordLaw d ∧ LaneViewLaw d ∧ SelectorLaw d ∧ CalendarLaw d
    ∧ State.reset.pending = []
    ∧ d.tb.time = 0#32 ∧ d.tb.valid = false ∧ d.tb.elapsed = 0 ∧ d.tb.ref = .absent ∧ d.tb.spaced = 0
    ∧ d.cpi.status = .starting ∧ d.cpi.pointer = .a ∧ d.cpi.serving = none
    ∧ (∀ p, (window d p).command = .ready ∧ (window d p).enable = 0#7 ∧ (window d p).sticky = 0#7
        ∧ (window d p).params = [] ∧ (window d p).response = [] ∧ (window d p).cursor = none)
    ∧ (∀ i, d.bkc.slots.get i = ⟨0#8, none⟩) ∧ d.bkc.nodeWait = [] ∧ d.bkc.unbilled = []
    ∧ (∀ i, selectorAt d i = none) ∧ (∀ l, lane d l = ⟨none, []⟩)
    ∧ (∀ n, node d n = ⟨.draining, none, none, .unknown, false, false, none⟩)
    ∧ (∀ p, port d p = ⟨none, false, .unknown, false, none⟩) ∧ d.fcu.inFlight = none
    ∧ (∀ t, (line d t).los = true ∧ (line d t).frameLoss = 0#8 ∧ (line d t).alarmSeen = false
        ∧ (line d t).awaited = none ∧ (line d t).flapCounter = 0) ∧ d.lmn.monitoring = false
    ∧ (∀ l, signalFail d l = true) ∧ (∀ r, (record d r).latched = 0#22 ∧ (record d r).mask = 0#22)
    ∧ (∀ i, d.svm.records.get i = none) ∧ d.bq.queue = [] ∧ d.bq.nextSerial = 1#32

/-! ### Encodings -/

/-- A Line Status Link unit is read back as the frame it was made from, for every frame of Formats (R126, R204). -/
def Obligations.LslUnitReadsBack : Prop :=
  ∀ f : LslFrame, (∀ t raw valid, f = .power t raw valid → -32768 ≤ raw ∧ raw ≤ 32767) → lslFrame (lslUnit f) = some f

/-- An image that was written whole loads as it was, with its restart number (R10, R16, R17, R201). That the whole image is
one packing of 426 bytes, with the restart number and the CRC at its end, is the model's reading (log entry 19). -/
def Obligations.SavedImageLoads : Prop :=
  ∀ (img : Image) (restart : BitVec 16), ImageInRange img →
    flashImage (flashHolding (imageBytes img restart)) = some img
      ∧ storedRestart (flashHolding (imageBytes img restart)) = restart

/-! ### Resets and start-up -/

/-- Power-on and the reset line give every block its reset values and keep the flash, which holds what it held, or what a
write that was cut off had written (R16, R197). -/
def Obligations.ResetsKeepOnlyFlash : Prop :=
  ∀ (s : State) (cut : StoreCut), ∃ d', Answers (.powerOn cut) s d' ∧ Answers (.resetLine cut) s d'
    ∧ d' = resetDevice d'.csc.flash
    ∧ (s.dev.csc.writing = none ∨ cut = .untouched → d'.csc.flash = s.dev.csc.flash)
    ∧ (∀ w n, s.dev.csc.writing = some w → cut = .written n → ∀ i, i < imageSize →
        Memory.read flashBlank d'.csc.flash i = (w.bytes.take n).getD i 0xFF#8)

/-- The self-check and the start-up load (R198, R199, R17, R18, R19). A self-check that passes goes on to the load, one that
fails sets HALTED. At the load a valid image is loaded with its restart number plus 1; a blank or bad one gives the factory
image, DEFAULTS and an onset of STORE_FAULT. -/
def Obligations.StartUpJudgesMemoriesAndFlash : Prop :=
  (∀ (s : State) (passed : Bool), s.dev.cpi.phase = .selfCheck → ∃ d', Answers (.selfCheckEnd passed) s d'
    ∧ OnlyChanges [.cpi] s.dev d' ∧ d'.cpi.windows = s.dev.cpi.windows
    ∧ d'.cpi.pointer = s.dev.cpi.pointer ∧ d'.cpi.serving = s.dev.cpi.serving ∧ d'.cpi.boot = s.dev.cpi.boot
    ∧ (passed = true → d'.cpi.phase = .load ∧ d'.cpi.status = s.dev.cpi.status)
    ∧ (passed = false → d'.cpi.phase = .halted ∧ d'.cpi.status = .halted))
  ∧ (∀ (s : State) (answers : Bool), s.dev.cpi.phase = .load → ∃ d', Answers (.storeLoadEnd answers) s d'
      ∧ OnlyChanges [.csc, .cpi, .fra, .psu, .fcu] s.dev d' ∧ d'.csc.flash = s.dev.csc.flash
      ∧ d'.cpi.phase = .restartWrite ∧ d'.cpi.status = s.dev.cpi.status ∧ d'.csc.unsaved = false
      ∧ d'.csc.writing = some ⟨imageBytes d'.csc.image d'.csc.restart, s.dev.tb.clock⟩
      ∧ (∀ img, answers = true → flashIsBlank s.dev.csc.flash = false → flashImage s.dev.csc.flash = some img →
          d'.csc.image = img ∧ d'.csc.restart = storedRestart s.dev.csc.flash + 1 ∧ d'.cpi.boot = .running
            ∧ hasSource (record d' deviceRecord).present srcStoreFault
                = hasSource (record s.dev deviceRecord).present srcStoreFault
            ∧ hasSource (record d' deviceRecord).latched srcStoreFault
                = hasSource (record s.dev deviceRecord).latched srcStoreFault)
      ∧ (answers = false ∨ flashIsBlank s.dev.csc.flash = true ∨ flashImage s.dev.csc.flash = none →
          d'.csc.image = factoryImage ∧ d'.cpi.boot = .defaults
            ∧ hasSource (record d' deviceRecord).present srcStoreFault = true
            ∧ hasSource (record d' deviceRecord).latched srcStoreFault = true
            ∧ d'.csc.restart
                = (if answers = true ∧ flashIsBlank s.dev.csc.flash = false then storedRestart s.dev.csc.flash else 0#16) + 1))

/-- The end of the restart write (R18, R98, R125): monitoring begins, every clean interval starts, and CLEAR_ALL goes out;
a write that fails (refused, cut off, read back other than written, or late) gives STORE_FAULT an onset and start-up goes on.
That a write verified at exactly 400 ms is in time is log entry 25. -/
def Obligations.RestartWriteStartsMonitoring : Prop :=
  ∀ (s : State) (result : StoreResult) (w : StoreWrite), s.dev.cpi.phase = .restartWrite → s.dev.csc.writing = some w →
    ∃ d', Answers (.restartWriteEnd result) s d'
      ∧ OnlyChanges [.tb, .csc, .cpi, .fra, .lmn, .fcu] s.dev d'
      ∧ d'.csc.image = s.dev.csc.image ∧ d'.csc.restart = s.dev.csc.restart ∧ d'.csc.writing = none
      ∧ d'.lmn = { s.dev.lmn with monitoring := true, lines := d'.lmn.lines }
      ∧ (∀ t, line d' t = { line s.dev t with
          cleanTimer := some (d'.tb.clock + 2 ^ s.dev.csc.image.defaults.flapExponent * 1000) })
      ∧ d'.fcu.inFlight
          = some ⟨.clearAll, s.dev.fcu.nextTag, 1, d'.tb.clock + s.dev.csc.image.defaults.fabricTimeout⟩
      ∧ d'.fcu.sent = [0x10#8, s.dev.fcu.nextTag, 0#8, 0#8] ∧ d'.fcu.nextTag = s.dev.fcu.nextTag + 1
      ∧ d'.fcu.nodes = s.dev.fcu.nodes ∧ d'.fcu.ports = s.dev.fcu.ports
      ∧ d'.cpi.phase = .clearAll ∧ d'.cpi.status = s.dev.cpi.status ∧ d'.cpi.windows = s.dev.cpi.windows
      ∧ (result = .verified → s.dev.tb.clock ≤ w.started + 400 →
          record d' deviceRecord = record s.dev deviceRecord
            ∧ ∀ i, i < imageSize → Memory.read flashBlank d'.csc.flash i = w.bytes.getD i 0xFF#8)
      ∧ (result = .eraseRefused ∨ (∃ n, result = .writeRefused n) ∨ (∃ cut, result = .timedOut cut)
            ∨ (∃ found, result = .differs found ∧ found ≠ w.bytes) ∨ w.started + 400 < s.dev.tb.clock →
          hasSource (record d' deviceRecord).present srcStoreFault = true
            ∧ hasSource (record d' deviceRecord).latched srcStoreFault = true)

/-! ### Network time -/

/-- A boundary made by the oscillator (R20, R21, R22, R28, R30): T advances by 1, the time-valid flag falls at the wrap, E
starts again, a MARK with the new T modulo 256 goes out, and the boundary is handed to the BKC, the SVM and, while it monitors,
the LMN. In a state in which the reference makes the boundaries nothing happens: that an event out of its condition changes
nothing is the model's choice (log entry 4); that the LMN is handed none before it monitors is log entry 33, and the clock and
E of a boundary taken late are log entry 5. -/
def Obligations.OscillatorBoundaryAdvancesTime : Prop :=
  ∀ s : State, ∃ d', Answers .boundary s d' ∧ OnlyChanges [.tb, .owed] s.dev d'
    ∧ (s.dev.tb.ref = .absent ∨ s.dev.tb.ref = .holdover ∨ (s.dev.tb.ref = .relocking ∧ s.dev.tb.spaced.val < 3) →
        (let t := s.dev.tb.time + 1
         let instant := s.dev.tb.clock - s.dev.tb.elapsed + 1000
         d'.tb = { s.dev.tb with
            time := t, valid := s.dev.tb.valid && decide (t ≠ 0#32), clock := max s.dev.tb.clock instant
            elapsed := s.dev.tb.clock - instant, marks := s.dev.tb.marks ++ [withCrc [0x05#8, t.extractLsb' 0 8]] }
          ∧ d'.owed.bkc = s.dev.owed.bkc ++ [t] ∧ d'.owed.svm = s.dev.owed.svm ++ [t]
          ∧ d'.owed.lmn = s.dev.owed.lmn ++ (if s.dev.lmn.monitoring then [t] else [])))
    ∧ (s.dev.tb.ref = .locked ∨ (s.dev.tb.ref = .relocking ∧ s.dev.tb.spaced = 3) → d' = s.dev)

/-- A reference pulse (R22 to R28): it starts or restarts a relock, counts a correct spacing of 999 to 1,001 ms, locks at the
first correct pulse after three, ends REFERENCE_LOST there, and makes the boundary in LOCKED. A boundary of the oscillator due
by its instant, and a loss due before it, are taken first, the earlier one first (R21, R24 to R26), and then the pulse from
there; so the second that a lock pulse of correct spacing ends lasts 999 to 2,000 ms (R25). That the pulse comes its delay
after the present instant, and is taken before a loss of the same instant, is log entry 5. -/
def Obligations.ReferencePulseMovesRelock : Prop :=
  ∀ (s : State) (delay : Nat), ∃ d', Answers (.referencePulse delay) s d' ∧ OnlyChanges [.tb, .owed, .fra] s.dev d'
    ∧ (let tb := s.dev.tb
       let now := tb.clock + delay
       let correct : Prop := ∃ l, tb.lastPulse = some l ∧ 999 ≤ now - l ∧ now - l ≤ 1001
       let lossAt (e : Nat) : Prop := (tb.ref = .locked ∨ tb.ref = .relocking) ∧ ∃ l, tb.lastPulse = some l ∧ e = l + 1200
       let boundaryAt (e : Nat) : Prop :=
          (tb.ref = .absent ∨ tb.ref = .holdover ∨ (tb.ref = .relocking ∧ tb.spaced.val < 3))
            ∧ e = tb.clock - tb.elapsed + 1000
       let after (c : Instr) : Prop := ∃ d1, Answers c s d1
          ∧ Answers (.referencePulse (now - d1.tb.clock)) ⟨d1, s.pending⟩ d'
       d'.tb.lastPulse = some now ∧ d'.tb.clock = now
        ∧ (∀ e, boundaryAt e → e ≤ now → (∀ l, lossAt l → l < now → e ≤ l) → after .boundary)
        ∧ (∀ l, lossAt l → l < now → (∀ e, boundaryAt e → l < e) → after .referenceLoss)
        ∧ ((∀ e, boundaryAt e → now < e) → (∀ l, lossAt l → now ≤ l) →
          (tb.ref = .absent ∨ tb.ref = .holdover →
            d'.tb.ref = .relocking ∧ d'.tb.spaced = 0 ∧ NoBoundary delay s.dev d' ∧ d'.fra = s.dev.fra)
          ∧ (tb.ref = .relocking → tb.spaced.val < 3 →
            d'.tb.ref = .relocking ∧ NoBoundary delay s.dev d' ∧ d'.fra = s.dev.fra
              ∧ (correct → d'.tb.spaced.val = tb.spaced.val + 1) ∧ (¬correct → d'.tb.spaced = 0))
          ∧ (tb.ref = .relocking → tb.spaced = 3 → correct →
            d'.tb.ref = .locked ∧ d'.tb.spaced = 0 ∧ BoundaryMade now s.dev d' ∧ d'.tb.refLost = false
              ∧ hasSource (record d' deviceRecord).present srcReferenceLost = false
              ∧ (record d' deviceRecord).latched = (record s.dev deviceRecord).latched)
          ∧ (tb.ref = .relocking → tb.spaced = 3 → ¬correct →
            d'.tb.ref = .relocking ∧ d'.tb.spaced = 0 ∧ d'.fra = s.dev.fra
              ∧ (1000 ≤ tb.elapsed + delay → BoundaryMade now s.dev d')
              ∧ (tb.elapsed + delay < 1000 → NoBoundary delay s.dev d'))
          ∧ (tb.ref = .locked → d'.tb.ref = .locked ∧ BoundaryMade now s.dev d' ∧ d'.fra = s.dev.fra)))

/-- 1,200 ms without a pulse (R24 to R28): HOLDOVER, REFERENCE_LOST, and a boundary where a pulse was to make it, with its
MARK, handed to the other blocks. The clock and E where the loss is taken late are log entry 5. -/
def Obligations.ReferenceLossHoldsOver : Prop :=
  ∀ (s : State) (p : Nat), s.dev.tb.lastPulse = some p → s.dev.tb.ref = .locked ∨ s.dev.tb.ref = .relocking →
    ∃ d', Answers .referenceLoss s d' ∧ OnlyChanges [.tb, .owed, .fra] s.dev d'
      ∧ d'.tb.ref = .holdover ∧ d'.tb.spaced = 0 ∧ d'.tb.refLost = true ∧ d'.tb.lastPulse = some p
      ∧ d'.tb.clock = max s.dev.tb.clock (p + 1200)
      ∧ (s.dev.tb.ref = .locked ∨ s.dev.tb.spaced = 3 → BoundaryMade (p + 1200) s.dev d')
      ∧ (¬(s.dev.tb.ref = .locked ∨ s.dev.tb.spaced = 3) → NoBoundary (p + 1200 - s.dev.tb.clock) s.dev d')
      ∧ hasSource (record d' deviceRecord).present srcReferenceLost = true
      ∧ (hasSource (record s.dev deviceRecord).present srcReferenceLost = false →
          hasSource (record d' deviceRecord).latched srcReferenceLost = true)
      ∧ (hasSource (record s.dev deviceRecord).present srcReferenceLost = true →
          (record d' deviceRecord).latched = (record s.dev deviceRecord).latched)
      ∧ OtherRecordsKept deviceRecord s.dev d'

/-- TIME_SET (R30, R31): with no booking in use and none due by the new value, T and the time-valid flag are set and nothing
else of the Time Base changes; otherwise the command is refused and changes nothing. -/
def Obligations.TimeSetSetsTime : Prop :=
  ∀ (s : State) (p : PortId), Takes s.dev p .timeSet → ∃ d', Answers .timeSet s d'
    ∧ (let v := param (window s.dev p).params 0 4
       let inUse : Prop := ∃ i b, bookingAt s.dev i = some b
          ∧ (b.state = .armed ∨ b.state = .live ∨ b.state = .overrun ∨ b.state = .settling)
       let due : Prop := ∃ i b, bookingAt s.dev i = some b ∧ b.state = .pending
          ∧ (b.start - b.lead ≤ v ∨ b.start - b.lead ≤ s.dev.tb.time.toNat)
       (v < 0xF0000000 → ¬inUse → ¬due →
          d'.tb = { s.dev.tb with time := BitVec.ofNat 32 v, valid := true } ∧ OnlyChanges [.tb, .cpi] s.dev d'
            ∧ Answered p (doneReply [u4 v, u4 s.dev.tb.time.toNat]) s.dev d' ∧ CommandNotified p 0#7 s.dev d')
        ∧ (0xF0000000 ≤ v → AnsweredOnly p (failReply .badParameter (some 0)) s.dev d')
        ∧ (v < 0xF0000000 → inUse ∨ due → AnsweredOnly p (failReply .wrongState (some 0)) s.dev d'))

/-! ### The boundary at the blocks -/

/-- The lifecycle at a boundary (R57, R58, R62, R63, R64, R65, R66): a booking arms, starts, enters OVERRUN or closes exactly
at its times, with the selector, the metering record and the flags its rule gives. An arming booking's selector is in the
state that its lanes give it (R104), its recipients' TEST claims go with TEST_PREEMPTED (R86), and the record meters the node
it has taken (R160), in a state that meets FabricLaw. A booking that closes is SETTLING, or, where its settlement is complete
at the close (R67, R170), charged in the normal form and UNBILLED, or its records are placed (R176, R184). In which order
several closes hand over their nodes is log entry 60, of which this says nothing. That the record of an arming booking has
taken the boundary at t is log entry 23; the warning at the very boundary of the planned end is log entry 22. -/
def Obligations.BookingsMeetTheirTimes : Prop :=
  ∀ (s : State) (t : Word) (rest : List Word), s.dev.owed.bkc = t :: rest →
    ∃ d', Answers .bkcBoundary s d'
      ∧ OnlyChanges [.owed, .bkc, .psu, .fcu, .svm, .fra, .bq, .cpi] s.dev d' ∧ NoticesOnly s.dev d'
      ∧ d'.owed = { s.dev.owed with bkc := rest }
      ∧ ∀ i b, bookingAt s.dev i = some b →
          (b.state = .pending → b.start - b.lead = t.toNat → ∃ b' sel m,
            bookingAt d' i = some b' ∧ b'.state = .armed ∧ b'.working = b.working ∧ b'.protection = b.protection
              ∧ b'.recipients = b.recipients ∧ b'.start = b.start ∧ b'.plannedEnd = b.plannedEnd
              ∧ b'.allowance = b.allowance ∧ b'.tariff = b.tariff ∧ (b'.node.isSome = true ∨ b'.nodeWait = true)
              ∧ selectorAt d' i = some sel ∧ sel.working = b.working ∧ sel.protection = b.protection
              ∧ d'.svm.records.get i = some m ∧ m.recipients = b.recipients.map (fun _ => freshRecipient)
              ∧ m.queue = [] ∧ m.taken = t
              ∧ (FabricLaw s.dev → m.node = b'.node)
              ∧ (∀ p ∈ b.recipients, (port d' p).test = false
                  ∧ ((port s.dev p).test = true → hasSource (record d' (portRecord p)).latched srcTestPreempted = true))
              ∧ (SelectorLaw s.dev →
                  (let failed : Prop := laneFailed s.dev b.working = true
                   let holdOff := b.holdOff.getD s.dev.csc.image.defaults.holdOff
                   let begins (state : SelectorState) (timer : Option SelectorTimer) (both : Bool) : Prop :=
                      sel.state = state ∧ sel.timer = timer ∧ sel.bothFailed = both
                   let protects (p : Lane) : Prop := begins .onProtection none false ∧ (lane d' p).holder = some sel.handle
                   sel.handle = handleAt s.dev i
                    ∧ (b.protection = none → begins .unprotected none false)
                    ∧ ∀ p, b.protection = some p →
                        (let lost : Prop := laneFailed s.dev p = true ∨ laneQuarantined s.dev p = true
                         (¬failed → begins .onWorking none false)
                          ∧ (failed → lost →
                              (0 < holdOff → begins .holdOff (some ⟨.holdOff, s.dev.tb.clock + holdOff⟩) false)
                              ∧ (holdOff = 0 → begins .onWorking none true))
                          ∧ (failed → ¬lost →
                              (protects p ∨ (0 < holdOff ∧ begins .holdOff (some ⟨.holdOff, s.dev.tb.clock + holdOff⟩) false)
                                ∨ (holdOff = 0 ∧ begins .waiting none false))
                              ∧ ((lane s.dev p).holder = none →
                                  (∀ j c, j ≠ i → bookingAt s.dev j = some c → c.protection ≠ some p) → protects p))))))
          ∧ (b.state = .pending → b.start - b.lead ≠ t.toNat →
              ∃ b', bookingAt d' i = some b' ∧ b'.state = .pending)
          ∧ (b.state = .armed → b.start = t.toNat → ∃ b', bookingAt d' i = some b' ∧ b'.state = .live)
          ∧ (b.state = .armed → b.start ≠ t.toNat → ∃ b', bookingAt d' i = some b' ∧ b'.state = .armed)
          ∧ (b.state = .live → b.plannedEnd = t.toNat → 0 < b.allowance →
              ∃ b', bookingAt d' i = some b' ∧ b'.state = .overrun)
          ∧ (b.state = .live → b.plannedEnd ≠ t.toNat → ∃ b', bookingAt d' i = some b' ∧ b'.state = .live)
          ∧ (b.state = .overrun → b.plannedEnd + b.allowance ≠ t.toNat →
              ∃ b', bookingAt d' i = some b' ∧ b'.state = .overrun)
          ∧ ((b.state = .live ∧ b.plannedEnd = t.toNat ∧ b.allowance = 0)
                ∨ (b.state = .overrun ∧ b.plannedEnd + b.allowance = t.toNat) →
              selectorAt d' i = none
                ∧ (let b' := { b with
                      state := .settling, closeTime := some t.toNat, endedEarly := decide (t.toNat < b.plannedEnd)
                      node := none, nodeWait := false }
                   (s.dev.svm.records.get i = none → bookingAt d' i = some b')
                    ∧ ∀ m, s.dev.svm.records.get i = some m → ∃ n, (i ∉ s.dev.bkc.nodeWait → n = m.node)
                        ∧ MeteredTo s.dev d' i b' { m with node := n }))
          ∧ (∀ b', bookingAt d' i = some b' → b'.state = .overrun →
              0 < s.dev.csc.image.defaults.overrunWarning →
              b.plannedEnd + b.allowance ≤ t.toNat + s.dev.csc.image.defaults.overrunWarning → b'.overrunWarned = true)

/-- The LMN's boundary (R136, R138, R140): an awaited second closes as missing, graded from its end state and unmonitored,
with REPORT_GAP; and the second just ended is awaited when it began at a boundary the LMN took. The snapshots that waited for
the seconds that close are graded, and those then ready are applied (R140, R164, R165, R170). -/
def Obligations.LineBoundaryClosesMissingSeconds : Prop :=
  ∀ (s : State) (t : Word) (rest : List Word), s.dev.owed.lmn = t :: rest → ∃ d', Answers .lmnBoundary s d'
    ∧ OnlyChanges [.owed, .lmn, .fra, .psu, .fcu, .svm, .bkc, .bq, .cpi] s.dev d' ∧ NoticesOnly s.dev d'
    ∧ d'.owed = { s.dev.owed with lmn := rest } ∧ d'.lmn.opened = true ∧ d'.lmn.transmitters = s.dev.lmn.transmitters
    ∧ ∀ tr, (line d' tr).awaited
            = (if s.dev.lmn.opened then some ⟨t - 1, (line s.dev tr).los, (line s.dev tr).frameLoss⟩ else none)
        ∧ (hasSource (record d' (trunkRecord tr)).present srcReportGap = true ↔ (line d' tr).reportGap = true)
        ∧ (∀ a, (line s.dev tr).awaited = some a → (line d' tr).reportGap = true
            ∧ ∃ c, (line d' tr).lastClosed = some c ∧ c.second = a.second ∧ c.unmonitored = true
              ∧ ∀ i, c.grades.get i = (if a.los = true ∨ hasLane a.frameLoss i = true then .severe else .clean))
        ∧ ((line s.dev tr).awaited = none → line d' tr = { line s.dev tr with awaited := (line d' tr).awaited })
        ∧ (line d' tr).flapCounter = (line s.dev tr).flapCounter ∧ (line d' tr).lateCount = (line s.dev tr).lateCount
        ∧ (∀ i b m, bookingAt s.dev i = some b → s.dev.svm.records.get i = some m →
            MeteredTo s.dev d' i b (applyReady b.plannedEnd { m with queue := m.queue.map (gradedMissing s.dev) }))

/-- The SVM's boundary (R161 to R165, R170, R176, R182 to R184): each record counts the boundary and clears its switch mark; a
booking that is LIVE, OVERRUN or SETTLING takes the snapshot of the second just ended when it was metered during it, the one
that closes at this boundary its last; what a snapshot records is spelled out (R163, R164). Then a SETTLING booking whose
seconds are all taken and applied is settled: its pending runs are resolved, it is charged in the normal form, and it is
UNBILLED, or its records are already placed. -/
def Obligations.MeterBoundaryTakesSnapshots : Prop :=
  ∀ (s : State) (t : Word) (rest : List Word), s.dev.owed.svm = t :: rest → ∃ d', Answers .svmBoundary s d'
    ∧ OnlyChanges [.owed, .svm, .bkc, .bq, .fra, .cpi] s.dev d' ∧ NoticesOnly s.dev d'
    ∧ d'.owed = { s.dev.owed with svm := rest } ∧ OtherRecordsKept deviceRecord s.dev d'
    ∧ (∀ i m', d'.svm.records.get i = some m' → ∃ m, s.dev.svm.records.get i = some m
        ∧ m'.taken = t ∧ m'.switchMark = false ∧ m'.node = m.node)
    ∧ (∀ i b m, bookingAt s.dev i = some b → s.dev.svm.records.get i = some m →
        b.state = .live ∨ b.state = .overrun ∨ b.state = .settling →
        (let n := t - 1
         let metered : Prop := b.start ≤ n.toNat ∧ ∀ c, b.closeTime = some c → n.toNat < c
         ∃ q, (metered → ∃ x, SnapshotOf s.dev n b m x ∧ q = m.queue ++ [x]) ∧ (¬metered → q = m.queue)
          ∧ MeteredTo s.dev d' i b (applyReady b.plannedEnd { m with queue := q, taken := t, switchMark := false })))
    ∧ (s.dev.bkc.unbilled = [] → ∀ j waiting, d'.bkc.unbilled = j :: waiting →
        ∃ b, bookingAt d' j = some b ∧ 512 < d'.bq.queue.length + b.recipients.length)

/-! ### The Line Status Link -/

/-- An ALARM frame (R127 to R131, R149, R152): the defect state is replaced, an onset of LOS counts a flap and restarts the
clean interval, the conditions reach the trunk's fault record, and the PSU's view is the signal-fail that follows. An onset of
a source that carries QUARANTINE quarantines the trunk (R150, R152), and every selector takes what this is to its lanes (R102,
R105 to R111, R118, R119, R121). -/
def Obligations.AlarmReplacesDefectState : Prop :=
  ∀ (s : State) (trunk : Byte) (t : Trunk) (los : Bool) (frameLoss upstream : LaneSet), trunk.toNat = t.val →
    ∃ d', Answers (.alarmFrame trunk los frameLoss upstream) s d'
      ∧ (s.dev.lmn.monitoring = false → d' = s.dev)
      ∧ (s.dev.lmn.monitoring = true →
          (let x := line s.dev t
           let onset := los && !x.los
           let count := if onset then min 15 (x.flapCounter + 1) else x.flapCounter
           OnlyChanges [.lmn, .fra, .psu, .fcu, .cpi] s.dev d' ∧ NoticesOnly s.dev d'
            ∧ line d' t = { x with
                alarmSeen := true, los := los, frameLoss := frameLoss, upstream := upstream, flapCounter := count
                flapLimit := if onset then decide (s.dev.csc.image.defaults.flapLimit < count) else x.flapLimit
                cleanTimer := if onset then some (s.dev.tb.clock + 2 ^ s.dev.csc.image.defaults.flapExponent * 1000)
                  else x.cleanTimer }
            ∧ (∀ u, u ≠ t → line d' u = line s.dev u) ∧ d'.lmn.transmitters = s.dev.lmn.transmitters
            ∧ (∀ r, r ≠ trunkRecord t → r ≠ deviceRecord → record d' r = record s.dev r)
            ∧ (hasSource (record d' (trunkRecord t)).present srcLos = los)
            ∧ (hasSource (record d' (trunkRecord t)).present srcFrameLoss = true ↔ frameLoss ≠ 0#8)
            ∧ (hasSource (record d' (trunkRecord t)).present srcUpstream = true ↔ upstream ≠ 0#8)
            ∧ (los = true → hasSource (record s.dev (trunkRecord t)).present srcLos = false →
                hasSource (record d' (trunkRecord t)).latched srcLos = true)
            ∧ (∀ l, laneFailed d' l = signalFail d' l) ∧ OnsetQuarantines t s.dev d'
            ∧ (SelectorLaw s.dev → LanesTaken s.dev d')))

/-- A SECOND frame is accepted exactly when the trunk awaits a second with its label; then the second closes and REPORT_GAP
ends; the snapshots that waited for it are graded, and those then ready are applied (R140, R164, R165, R170). Any other frame
raises the late-report count, to 65,535 at most, and changes nothing else (R137). Before monitoring begins a frame changes
nothing (R125). -/
def Obligations.SecondFrameClosesAwaitedSecond : Prop :=
  ∀ (s : State) (trunk label : Byte) (t : Trunk) (lanes : Vector LaneReport 8), trunk.toNat = t.val →
    ∃ d', Answers (.secondFrame trunk label lanes) s d'
      ∧ (s.dev.lmn.monitoring = false → d' = s.dev)
      ∧ (s.dev.lmn.monitoring = true →
      NoticesOnly s.dev d' ∧ (∀ u, u ≠ t → line d' u = line s.dev u) ∧ d'.lmn = { s.dev.lmn with lines := d'.lmn.lines }
      ∧ (∀ a, (line s.dev t).awaited = some a → a.second.toNat % 256 = label.toNat →
          OnlyChanges [.lmn, .fra, .psu, .fcu, .svm, .bkc, .bq, .cpi] s.dev d'
            ∧ ∃ c, line d' t = { line s.dev t with awaited := none, reportGap := false, lastClosed := some c }
                ∧ c.second = a.second
                ∧ hasSource (record d' (trunkRecord t)).present srcReportGap = false
                ∧ (∀ i b m, bookingAt s.dev i = some b → s.dev.svm.records.get i = some m →
                    MeteredTo s.dev d' i b (applyReady b.plannedEnd { m with queue := m.queue.map (gradedBy t c) })))
      ∧ ((∀ a, (line s.dev t).awaited = some a → a.second.toNat % 256 ≠ label.toNat) →
          OnlyChanges [.lmn] s.dev d'
            ∧ line d' t = { line s.dev t with lateCount := min 65535 ((line s.dev t).lateCount + 1) }))

/-- The grades of a reported second (R139). -/
def Obligations.ReportedSecondIsGraded : Prop :=
  ∀ (s : State) (trunk label : Byte) (t : Trunk) (lanes : Vector LaneReport 8) (a : Awaited), trunk.toNat = t.val →
    s.dev.lmn.monitoring = true → (line s.dev t).awaited = some a → a.second.toNat % 256 = label.toNat →
    ∃ d' c, Answers (.secondFrame trunk label lanes) s d' ∧ (line d' t).lastClosed = some c ∧ c.unmonitored = false
      ∧ ∀ i : Fin 8, (let r := lanes.get i
          let errored := min 8000 r.errored.toNat
          (r.defect = true ∨ 2400 ≤ errored → c.grades.get i = .severe)
            ∧ (¬(r.defect = true ∨ 2400 ≤ errored) → r.upstream = true → c.grades.get i = .source)
            ∧ (¬(r.defect = true ∨ 2400 ≤ errored) → r.upstream = false → 1 ≤ errored → c.grades.get i = .errored)
            ∧ (¬(r.defect = true ∨ 2400 ≤ errored) → r.upstream = false → errored = 0 → c.grades.get i = .clean))

/-- A POWER frame (R125, R132, R133, R134): an invalid report, or one before monitoring begins, changes nothing; a valid one
is calibrated, clamped and judged by the three filters of the trunk's profile. The PSU's view, the trunk's service state and
the selectors follow (R149, R150, R152, R105 to R111, R121). -/
def Obligations.PowerFrameIsFiltered : Prop :=
  ∀ (s : State) (trunk : Byte) (t : Trunk) (raw : BitVec 16) (valid : Bool), trunk.toNat = t.val →
    ∃ d', Answers (.powerFrame trunk raw valid) s d'
      ∧ (valid = false ∨ s.dev.lmn.monitoring = false → d' = s.dev)
      ∧ (valid = true → s.dev.lmn.monitoring = true →
          (let img := s.dev.csc.image
           let p := img.profiles.get (img.choices.get t)
           let sum := raw.toInt + img.calibration.get t
           let v := max (-400) (min 100 sum)
           let x := line s.dev t
           let x' := line d' t
           OnlyChanges [.lmn, .fra, .psu, .fcu, .cpi] s.dev d' ∧ NoticesOnly s.dev d'
            ∧ (∀ u, u ≠ t → line d' u = line s.dev u)
            ∧ x' = { x with raw := some raw.toInt, calibrated := some v, saturated := decide (v ≠ sum)
                            lowWarn := x'.lowWarn, lowAlarm := x'.lowAlarm, highAlarm := x'.highAlarm }
            ∧ FilterStep p.f (if x.lowWarn.present then max (-400) (min 100 (p.warnLow + p.h)) ≤ v else v ≤ p.warnLow)
                x.lowWarn x'.lowWarn
            ∧ FilterStep p.f (if x.lowAlarm.present then max (-400) (min 100 (p.alarmLow + p.h)) ≤ v else v ≤ p.alarmLow)
                x.lowAlarm x'.lowAlarm
            ∧ FilterStep p.f (if x.highAlarm.present then v ≤ max (-400) (min 100 (p.alarmHigh - p.h)) else p.alarmHigh ≤ v)
                x.highAlarm x'.highAlarm
            ∧ (hasSource (record d' (trunkRecord t)).present srcLowWarn = x'.lowWarn.present)
            ∧ (hasSource (record d' (trunkRecord t)).present srcLowAlarm = x'.lowAlarm.present)
            ∧ (hasSource (record d' (trunkRecord t)).present srcHighAlarm = x'.highAlarm.present)
            ∧ (∀ l, laneFailed d' l = signalFail d' l) ∧ OnsetQuarantines t s.dev d'
            ∧ (SelectorLaw s.dev → LanesTaken s.dev d')))

/-- A PORTSTAT frame replaces the two conditions of its port, and its onsets are latched on the port's record alone
(R143); before monitoring begins it changes nothing (R125). -/
def Obligations.PortstatReplacesConditions : Prop :=
  ∀ (s : State) (portByte : Byte) (p : HandoffPort) (txFault farEndLink : Bool), portByte.toNat = p.val →
    ∃ d', Answers (.portstatFrame portByte txFault farEndLink) s d'
      ∧ (s.dev.lmn.monitoring = false → d' = s.dev)
      ∧ (s.dev.lmn.monitoring = true →
        OnlyChanges [.lmn, .fra] s.dev d' ∧ d'.lmn.lines = s.dev.lmn.lines ∧ d'.fra.trunks = s.dev.fra.trunks
        ∧ d'.lmn.transmitters.get p = ⟨true, txFault, !farEndLink⟩
        ∧ (∀ q, q ≠ p → d'.lmn.transmitters.get q = s.dev.lmn.transmitters.get q)
        ∧ OtherRecordsKept (portRecord p) s.dev d'
        ∧ (let x := record s.dev (portRecord p)
           let x' := record d' (portRecord p)
           hasSource x'.present srcTxFault = txFault ∧ hasSource x'.present srcFarEndDown = !farEndLink
            ∧ x'.latched = x.latched ||| (x'.present &&& ~~~x.present) ∧ x'.mask = x.mask ∧ x'.groups = x.groups))

/-- Units that are refused. An LSL unit that fails the checks of R126 latches LSL_FRAME_ERROR, and is not taken before
monitoring begins (R125); so does a frame event that names a trunk above 15 or a port above 31. A reply that is not the reply
to the order in flight latches FABRIC_PROTOCOL (R93). Nothing else changes: no table entry, no timer, no order in flight. -/
def Obligations.RefusedUnitsOnlyLatch : Prop :=
  ∀ (s : State) (c : Instr),
    ((∃ unit, c = .lslFrameDiscard unit ∧ lslFrame unit = none)
      ∨ (∃ t los fl up, c = .alarmFrame t los fl up ∧ 16 ≤ t.toNat)
      ∨ (∃ t label lanes, c = .secondFrame t label lanes ∧ 16 ≤ t.toNat)
      ∨ (∃ t raw valid, c = .powerFrame t raw valid ∧ 16 ≤ t.toNat)
      ∨ (∃ p tx far, c = .portstatFrame p tx far ∧ 32 ≤ p.toNat) →
      ∃ d', Answers c s d'
        ∧ (s.dev.lmn.monitoring = false → d' = s.dev)
        ∧ (s.dev.lmn.monitoring = true → OnlyChanges [.fra] s.dev d' ∧ d'.fra.trunks = s.dev.fra.trunks
            ∧ OtherRecordsKept deviceRecord s.dev d'
            ∧ record d' deviceRecord = { record s.dev deviceRecord with
                latched := (record s.dev deviceRecord).latched ||| srcLslFrameError }))
    ∧ ((∃ tag, c = .fabricAck tag ∧ ∀ o, s.dev.fcu.inFlight = some o → o.tag ≠ tag)
        ∨ (∃ tag reason, c = .fabricNak tag reason ∧ ∀ o, s.dev.fcu.inFlight = some o → o.tag ≠ tag)
        ∨ (∃ reply, c = .folReplyNotAdmitted reply ∧ folReply reply = none) →
      ∃ d', Answers c s d' ∧ OnlyChanges [.fra] s.dev d' ∧ d'.fra.trunks = s.dev.fra.trunks
        ∧ OtherRecordsKept deviceRecord s.dev d'
        ∧ record d' deviceRecord = { record s.dev deviceRecord with
            latched := (record s.dev deviceRecord).latched ||| srcFabricProtocol })

/-- The end of a clean interval: the flap counter falls by 1 where it can, FLAP_LIMIT follows, and the timer restarts at its
own instant (R130, R131), or at the present one where the end is taken late (log entry 5). The PSU's view and the selectors
follow (R149, R152). -/
def Obligations.CleanIntervalForgetsFlap : Prop :=
  ∀ (s : State) (t : Trunk) (e : Nat), (line s.dev t).cleanTimer = some e →
    ∃ d', Answers (.cleanIntervalExpiry t) s d'
      ∧ OnlyChanges [.tb, .lmn, .fra, .psu, .fcu, .cpi] s.dev d' ∧ NoticesOnly s.dev d'
      ∧ d'.tb.clock = max s.dev.tb.clock e ∧ d'.tb.time = s.dev.tb.time
      ∧ line d' t = { line s.dev t with
          flapCounter := (line s.dev t).flapCounter - 1
          flapLimit := decide (s.dev.csc.image.defaults.flapLimit < (line s.dev t).flapCounter - 1)
          cleanTimer := some (d'.tb.clock + 2 ^ s.dev.csc.image.defaults.flapExponent * 1000) }
      ∧ (∀ u, u ≠ t → line d' u = line s.dev u)
      ∧ (hasSource (record d' (trunkRecord t)).present srcFlapLimit = (line d' t).flapLimit)
      ∧ (∀ l, laneFailed d' l = signalFail d' l) ∧ OnsetQuarantines t s.dev d' ∧ (SelectorLaw s.dev → LanesTaken s.dev d')

/-! ### The Fabric Order Link -/

/-- An ACK with the tag in flight completes the order and sets the value it carried (R79, R90, R98). The reconciler then sends
the order of the first class that holds a differing entry, and of its lowest such entry (R87, R88, R89). A DRAINING node that
the draining rule then lets go is FREE, or granted to the head of the node wait list (R59, R60, R95). -/
def Obligations.AckConfirmsOrder : Prop :=
  ∀ (s : State) (o : InFlight), s.dev.fcu.inFlight = some o → ∃ d', Answers (.fabricAck o.tag) s d'
    ∧ OnlyChanges [.fcu, .svm, .bkc, .cpi] s.dev d'
    ∧ (s.dev.cpi.phase ≠ .clearAll → NoticesOnly s.dev d')
    ∧ (s.dev.cpi.phase = .clearAll → d'.cpi.phase = .operating ∧ d'.cpi.status = s.dev.cpi.boot)
    ∧ (∀ o', d'.fcu.inFlight = some o' → o'.tag = s.dev.fcu.nextTag ∧ o'.sends = 1
        ∧ o'.expiry = d'.tb.clock + d'.csc.image.defaults.fabricTimeout ∧ d'.fcu.nextTag = s.dev.fcu.nextTag + 1
        ∧ d'.fcu.sent = orderUnit o'.kind o'.tag)
    ∧ (d'.cpi.phase = .operating → ChosenOrder d' (d'.fcu.inFlight.map fun o' => o'.kind))
    ∧ (d'.cpi.phase ≠ .operating → d'.fcu.inFlight = none)
    ∧ (∀ n l, o.kind = .nodeSelect n l → (node d' n).confirmed = .lane l
        ∧ ((node s.dev n).state = .owned → (node d' n).established = true)
        ∧ ∀ m, m ≠ n → (node d' m).confirmed = (node s.dev m).confirmed)
    ∧ (∀ n, o.kind = .nodeRelease n → (node d' n).confirmed = .none
        ∧ ∀ m, m ≠ n → (node d' m).confirmed = (node s.dev m).confirmed)
    ∧ (∀ p n, o.kind = .portJoin p n → (port d' p).confirmed = .node n)
    ∧ (∀ p, o.kind = .portPark p → (port d' p).confirmed = .park)
    ∧ (∀ p, o.kind = .portTest p → (port d' p).confirmed = .test)
    ∧ (∀ p q n, o.kind = .portJoin p n ∨ o.kind = .portPark p ∨ o.kind = .portTest p → q ≠ p →
        (port d' q).confirmed = (port s.dev q).confirmed ∧ (node d' n).confirmed = (node s.dev n).confirmed)
    ∧ (o.kind = .clearAll → (∀ n, (node d' n).confirmed = .none) ∧ ∀ p, (port d' p).confirmed = .park)
    ∧ (FabricLaw s.dev → NodesReused (fun n => (node s.dev n).state = .draining) none s.dev.bkc.nodeWait s.dev d')

/-- A NAK with the tag in flight (R91): the reason is recorded, the confirmed values stay, FABRIC_NAK and, for a port,
JOIN_FAILED are latched; where the draining rule grants no node in the same event, the entry is stuck while it still wants
what was ordered (compared as values, log entry 62); and the draining rule is evaluated (R95). A NAK of CLEAR_ALL marks no
entry and ends start-up (R98, R198); that it is no entry's last refusal is log entry 57, of which this says nothing. -/
def Obligations.NakLeavesConfirmedValues : Prop :=
  ∀ (s : State) (o : InFlight) (reason : Byte), s.dev.fcu.inFlight = some o →
    ∃ d', Answers (.fabricNak o.tag reason) s d'
      ∧ OnlyChanges [.fcu, .svm, .bkc, .fra, .cpi] s.dev d' ∧ StartUpEnds s.dev d'
      ∧ (o.kind = .clearAll → s.dev.bkc.nodeWait = [] → MarksKept s.dev d')
      ∧ (∀ n, (node d' n).confirmed = (node s.dev n).confirmed) ∧ (∀ p, (port d' p).confirmed = (port s.dev p).confirmed)
      ∧ (∀ o', d'.fcu.inFlight = some o' → o'.tag = s.dev.fcu.nextTag ∧ o'.sends = 1)
      ∧ hasSource (record d' deviceRecord).latched srcFabricNak = true
      ∧ (s.dev.bkc.nodeWait = [] → d'.bkc = s.dev.bkc ∧ d'.svm = s.dev.svm)
      ∧ (∀ n l, o.kind = .nodeSelect n l → (node d' n).refusal = some reason
          ∧ (s.dev.bkc.nodeWait = [] →
              (node d' n).stuck = ((node s.dev n).stuck || decide ((node s.dev n).desired = some l))))
      ∧ (∀ n, o.kind = .nodeRelease n → (node d' n).refusal = some reason
          ∧ (s.dev.bkc.nodeWait = [] →
              (node d' n).stuck = ((node s.dev n).stuck || decide ((node s.dev n).desired = none))))
      ∧ (∀ p a, (o.kind = .portPark p ∧ a = .park) ∨ (o.kind = .portTest p ∧ a = .test)
            ∨ (∃ n, o.kind = .portJoin p n ∧ a = .node n) →
          (port d' p).refusal = some reason
            ∧ (s.dev.bkc.nodeWait = [] →
                (port d' p).stuck = ((port s.dev p).stuck || decide (desiredAttachment (port s.dev p) = a)))
            ∧ hasSource (record d' (portRecord p)).latched srcJoinFailed = true)
      ∧ (FabricLaw s.dev → NodesReused (fun n => (node s.dev n).state = .draining) none s.dev.bkc.nodeWait s.dev d')

/-- A RESET_NOTICE (R96): the order in flight is abandoned, every source is NONE and every attachment PARK, stuck and
established marks clear, no node stays DRAINING, each is FREE or granted (R60, R95), and FABRIC_RESET_SEEN is latched. A
CLEAR_ALL so abandoned ends start-up (R98, R198). -/
def Obligations.ResetNoticeClearsFabric : Prop :=
  ∀ s : State, ∃ d', Answers .resetNotice s d' ∧ OnlyChanges [.fcu, .svm, .bkc, .fra, .cpi] s.dev d'
    ∧ StartUpEnds s.dev d'
    ∧ (∀ n, (node d' n).confirmed = .none ∧ (node d' n).stuck = false ∧ (node d' n).established = false
        ∧ (node d' n).state ≠ .draining)
    ∧ (∀ n, (node s.dev n).state = .owned → (node d' n).state = .owned ∧ (node d' n).owner = (node s.dev n).owner)
    ∧ (∀ p, (port d' p).confirmed = .park ∧ (port d' p).stuck = false ∧ (port d' p).test = (port s.dev p).test)
    ∧ (∀ o, d'.fcu.inFlight = some o → o.tag = s.dev.fcu.nextTag ∧ o.sends = 1)
    ∧ OtherRecordsKept deviceRecord s.dev d'
    ∧ (record d' deviceRecord).latched = (record s.dev deviceRecord).latched ||| srcFabricResetSeen
    ∧ (FabricLaw s.dev → NodesReused (fun n => (node s.dev n).state = .draining) none s.dev.bkc.nodeWait s.dev d')

/-- The expiry of the order timer (R92): the first resends the order with its tag; the second gives it up, makes its entry
UNKNOWN, stuck where it still wants what was ordered (compared as values, log entry 62), and latches FABRIC_TIMEOUT. An
UNKNOWN port drains every FREE node, and none is freed while it stands; after any other order the draining rule is evaluated
(R95). A CLEAR_ALL given up marks no entry and ends start-up (R98, R198). The clock, and the timer of the resend counted from
it, are log entry 5 where the expiry is taken late. -/
def Obligations.OrderTimerResendsThenGivesUp : Prop :=
  ∀ (s : State) (o : InFlight), s.dev.fcu.inFlight = some o → ∃ d', Answers .orderTimerExpiry s d'
    ∧ d'.tb.clock = max s.dev.tb.clock o.expiry ∧ d'.tb.time = s.dev.tb.time
    ∧ (o.sends = 1 → OnlyChanges [.tb, .fcu] s.dev d'
        ∧ d'.fcu = { s.dev.fcu with
            inFlight := some { o with sends := 2, expiry := d'.tb.clock + s.dev.csc.image.defaults.fabricTimeout }
            sent := orderUnit o.kind o.tag })
    ∧ (o.sends = 2 → OnlyChanges [.tb, .fcu, .svm, .bkc, .fra, .cpi] s.dev d' ∧ StartUpEnds s.dev d'
        ∧ (o.kind = .clearAll → s.dev.bkc.nodeWait = [] → MarksKept s.dev d')
        ∧ OtherRecordsKept deviceRecord s.dev d'
        ∧ (record d' deviceRecord).latched = (record s.dev deviceRecord).latched ||| srcFabricTimeout
        ∧ (∀ o', d'.fcu.inFlight = some o' → o'.tag = s.dev.fcu.nextTag ∧ o'.sends = 1)
        ∧ ((∀ p, o.kind ≠ .portPark p ∧ o.kind ≠ .portTest p ∧ ∀ n, o.kind ≠ .portJoin p n) → FabricLaw s.dev →
            NodesReused (fun n => (node s.dev n).state = .draining) none s.dev.bkc.nodeWait s.dev d')
        ∧ (∀ n src, (o.kind = .nodeRelease n ∧ src = none) ∨ (∃ l, o.kind = .nodeSelect n l ∧ src = some l) →
            node d' n = { node s.dev n with
              confirmed := .unknown, stuck := (node s.dev n).stuck || decide ((node s.dev n).desired = src) })
        ∧ (∀ p a, (o.kind = .portPark p ∧ a = .park) ∨ (o.kind = .portTest p ∧ a = .test)
              ∨ (∃ n, o.kind = .portJoin p n ∧ a = .node n) →
            port d' p = { port s.dev p with
                confirmed := .unknown, stuck := (port s.dev p).stuck || decide (desiredAttachment (port s.dev p) = a) }
              ∧ (∀ q, q ≠ p → port d' q = port s.dev q)
              ∧ (∀ m, (node d' m).state ≠ .free)
              ∧ ∀ m, node d' m = { node s.dev m with
                  state := if (node s.dev m).state = .free then .draining else (node s.dev m).state })
        ∧ (o.kind = .clearAll → (∀ n, (node d' n).confirmed = (node s.dev n).confirmed)
            ∧ ∀ p, (port d' p).confirmed = (port s.dev p).confirmed))

/-! ### The timers of the selectors -/

/-- The expiry of a hold-off timer (R106): ON_WORKING with BOTH_FAILED, ON_PROTECTION as the lane's holder, or WAITING behind
every waiting booking of its own or higher priority and ahead of every one of lower priority (R118). The clock where the
expiry is taken late is log entry 5. -/
def Obligations.HoldOffJudgesProtectionLane : Prop :=
  ∀ (s : State) (i : SlotId) (x : Selector) (e : Nat) (p : Lane), selectorAt s.dev i = some x → x.state = .holdOff →
    x.timer = some ⟨.holdOff, e⟩ → x.protection = some p → ∃ d', Answers (.holdOffExpiry i) s d'
      ∧ OnlyChanges [.tb, .psu, .fcu, .fra, .cpi] s.dev d' ∧ NoticesOnly s.dev d'
      ∧ d'.tb.clock = max s.dev.tb.clock e
      ∧ (∀ j, j ≠ i → selectorAt d' j = selectorAt s.dev j) ∧ (∀ l, l ≠ p → lane d' l = lane s.dev l)
      ∧ (laneFailed s.dev p = true ∨ laneQuarantined s.dev p = true →
          selectorAt d' i = some { x with state := .onWorking, timer := none, bothFailed := true }
            ∧ lane d' p = lane s.dev p ∧ (x.bothFailed = false → Notified protectionNotice s.dev d'))
      ∧ (laneFailed s.dev p = false → laneQuarantined s.dev p = false → freeFor s.dev p x.handle = true →
          selectorAt d' i = some { x with state := .onProtection, timer := none }
            ∧ (lane d' p).holder = some x.handle ∧ (p ≠ x.working → Notified protectionNotice s.dev d'))
      ∧ (laneFailed s.dev p = false → laneQuarantined s.dev p = false → freeFor s.dev p x.handle = false →
          selectorAt d' i = some { x with state := .waiting, timer := none }
            ∧ (lane d' p).holder = (lane s.dev p).holder
            ∧ (∃ w pre post, w.handle = handleAt s.dev i ∧ w.joined = s.dev.tb.time
                ∧ (∀ b, bookingAt s.dev i = some b → w.priority = b.priority)
                ∧ (lane s.dev p).waiting = pre ++ post ∧ (lane d' p).waiting = pre ++ w :: post
                ∧ (∀ v ∈ pre, w.priority ≤ v.priority)
                ∧ ((lane s.dev p).waiting.Pairwise (fun u v => v.priority ≤ u.priority) →
                    ∀ v ∈ post, v.priority < w.priority))
            ∧ hasSource (record d' deviceRecord).present srcSharedDenied = true ∧ Notified 0#7 s.dev d')

/-- The expiry of the wait-to-restore timer and of the return timer (R109, R110): the selector returns to ON_WORKING and
releases its protection lane. The lane's arbiter (R119) grants a healthy lane to the first waiting booking whose working lane
is failed; a failed lane, or one that no such booking waits for, stays free. The clock where the expiry is taken late is log
entry 5. -/
def Obligations.RestoreTimersReturnToWorking : Prop :=
  ∀ (s : State) (i : SlotId) (x : Selector) (e : Nat) (p : Lane) (c : Instr), selectorAt s.dev i = some x →
    x.protection = some p → (∀ w ∈ (lane s.dev p).waiting, w.handle.slot ≠ i) →
    (c = .waitToRestoreExpiry i ∧ x.state = .waitRestore ∧ x.timer = some ⟨.waitToRestore, e⟩)
      ∨ (c = .returnTimerExpiry i ∧ x.state = .onProtection ∧ x.timer = some ⟨.returnTimer, e⟩) →
    ∃ d', Answers c s d' ∧ OnlyChanges [.tb, .psu, .fcu, .fra, .cpi] s.dev d' ∧ NoticesOnly s.dev d'
      ∧ d'.tb.clock = max s.dev.tb.clock e
      ∧ selectorAt d' i = some { x with state := .onWorking, timer := none }
      ∧ (p ≠ x.working → Notified protectionNotice s.dev d')
      ∧ (laneFailed s.dev p = true ∨ (∀ w y, ¬FirstInNeed s.dev p w y) →
          (lane d' p).holder = none ∧ (lane d' p).waiting = (lane s.dev p).waiting
            ∧ (∀ j, j ≠ i → selectorAt d' j = selectorAt s.dev j))
      ∧ (∀ w y, laneFailed s.dev p = false → FirstInNeed s.dev p w y → Awaits p w y →
          Granted p w y s.dev d' ∧ (∀ j, j ≠ i → j ≠ w.handle.slot → selectorAt d' j = selectorAt s.dev j))

/-! ### Windows -/

/-- A master write to the command word (R192), by what the word reads and what is written. -/
def Obligations.CommandWordFollowsMasterWrites : Prop :=
  ∀ (s : State) (p : PortId) (v : Word), ∃ d', Answers (.commandWordWrite p v) s d'
    ∧ OnlyChanges [.cpi] s.dev d' ∧ (∀ q, q ≠ p → window d' q = window s.dev q)
    ∧ d'.cpi.serving = s.dev.cpi.serving ∧ d'.cpi.pointer = s.dev.cpi.pointer
    ∧ (let c := (window s.dev p).command
       let c' := (window d' p).command
       window d' p = { window s.dev p with command := c' }
        ∧ (c = .taken → c' = .taken)
        ∧ (v = 0xFFFF0001#32 ∨ v = 0xFFFF0002#32 ∨ v = 0xFFFF0003#32 → c' = c)
        ∧ (v = 0#32 → c ≠ .taken → c' = .ready)
        ∧ (v ≠ 0#32 → v ≠ 0xFFFF0001#32 → v ≠ 0xFFFF0002#32 → v ≠ 0xFFFF0003#32 → c ≠ .taken → c' = .posted v))

/-- A write of the notice enable word replaces the enable set at once, and the notice word is what is both present and
enabled (R156, R157). A write of a parameter word is read back, and is discarded while the command word reads TAKEN
(R190, R192). Neither changes anything else of the part. A write of a word that is read-only or unassigned is discarded
(R191). -/
def Obligations.MasterWritesReachTheirWords : Prop :=
  ∀ (s : State) (p : PortId) (v : Word),
    (∃ d', Answers (.noticeEnableWrite p v) s d' ∧ OnlyChanges [.cpi] s.dev d'
      ∧ (∀ q, q ≠ p → window d' q = window s.dev q) ∧ window d' p = { window s.dev p with enable := v.setWidth 7 }
      ∧ noticeWord d' p = ((window s.dev p).sticky ||| levelClasses s.dev) &&& v.setWidth 7)
    ∧ (∀ i : Fin 256, AreasCanonical s.dev → ∃ d', Answers (.parameterAreaWrite p i v) s d' ∧ OnlyChanges [.cpi] s.dev d'
      ∧ (∀ q, q ≠ p → window d' q = window s.dev q)
      ∧ window d' p = { window s.dev p with params := (window d' p).params }
      ∧ ((window s.dev p).command = .taken → d' = s.dev)
      ∧ ((window s.dev p).command ≠ .taken →
          windowRead d' p (0x040 + 4 * i.val) = v
            ∧ ∀ a, a < 4 * i.val ∨ 4 * i.val + 4 ≤ a →
                Memory.read windowBlank (window d' p).params a = Memory.read windowBlank (window s.dev p).params a))
    ∧ (∀ offset, offset < 2048 → offset % 4 = 0 → offset ≠ 0x00C → offset ≠ 0x018 → (offset < 0x040 ∨ 0x440 ≤ offset) →
      Answers (.windowWrite p offset v) s s.dev)

/-! ### The command engine -/

/-- A posted code that names no command is answered BAD_COMMAND (R193 step 2); a command of a port without a role it needs is
answered NOT_PERMITTED (step 4); in HALTED every command but DEVICE_RESTART is answered NOT_READY (R199). None of them
changes anything else. -/
def Obligations.EngineRefusesBeforeTheOwner : Prop :=
  ∀ (s : State) (p : PortId) (code : Word), chosenPort s.dev = some p → postedCode s.dev p = some code →
    (commandOf code = none →
      ∃ d', Answers .badCommand s d' ∧ AnsweredOnly p (failReply .badCommand none) s.dev d')
    ∧ (∀ c, commandOf code = some c → s.dev.cpi.status ≠ .halted → permitted (rolesOf s.dev p) c = false →
      ∃ d', Answers (commandRow (selectForm s.dev) c) s d' ∧ AnsweredOnly p (failReply .notPermitted none) s.dev d')
    ∧ (∀ c, commandOf code = some c → s.dev.cpi.status = .halted → c ≠ .deviceRestart →
      ∃ d', Answers (commandRow (selectForm s.dev) c) s d' ∧ AnsweredOnly p (failReply .notReady none) s.dev d')

/-! ### Bookings -/

/-- BOOK_SUBMIT (R36, R37, R40, R48, R49): admitted, the lowest FREE slot holds the entry in PENDING with its generation as it
was; refused, nothing changes but the window. -/
def Obligations.SubmitAdmitsOrChangesNothing : Prop :=
  ∀ (s : State) (p : PortId), Takes s.dev p .bookSubmit → ∃ d', Answers .bookSubmit s d'
    ∧ (let r := submitParameters (window s.dev p).params
       (∀ i lanes, admitNew s.dev r = .ok (i, lanes) →
          (let b := admittedBooking s.dev p r lanes
           bookingAt s.dev i = none ∧ (∀ j, j < i → bookingAt s.dev j ≠ none)
            ∧ d'.bkc.slots.get i = ⟨(s.dev.bkc.slots.get i).generation, some b⟩ ∧ b.state = .pending
            ∧ b.guard = s.dev.csc.image.defaults.releaseGuard
            ∧ b.tariff = s.dev.csc.image.tariffs.get b.tariffClass
            ∧ (∀ j, j ≠ i → d'.bkc.slots.get j = s.dev.bkc.slots.get j)
            ∧ d'.bkc.nodeWait = s.dev.bkc.nodeWait ∧ d'.bkc.unbilled = s.dev.bkc.unbilled
            ∧ OnlyChanges [.bkc, .cpi] s.dev d' ∧ CursorKept p s.dev d' ∧ CommandNotified p bookingNotice s.dev d'
            ∧ Answered p (doneReply (admissionFields (handleAt s.dev i) b)) s.dev d'))
        ∧ (∀ x, admitNew s.dev r = .error x →
          AnsweredOnly p (rejectionReply (submitOffset (min 8 r.count)) x) s.dev d'))

/-- An admitted booking shares no lane and no port with a holding booking whose reserved interval overlaps its own; its lanes
lie on NORMAL trunks of its venue, the protection lane on another trunk than the working lane (R41 to R46). At every instant
of its interval fewer than 48 holding bookings, and fewer than 4 on its protection lane, hold theirs (R43, R44, R47). -/
def Obligations.AdmittedBookingConflictsWithNone : Prop :=
  ∀ (d : Device) (r : RawBooking) (i : SlotId) (w : Lane) (p : Option Lane), admitNew d r = .ok (i, w, p) →
    servesVenue d r.venue (trunkOf w) = true ∧ trunkNormal d (trunkOf w) = true
      ∧ (∀ l, p = some l → servesVenue d r.venue (trunkOf l) = true ∧ trunkNormal d (trunkOf l) = true
          ∧ trunkOf l ≠ trunkOf w)
      ∧ r.start - r.lead > d.tb.time.toNat ∧ d.tb.valid = true
      ∧ (∀ x, r.start - r.lead ≤ x → x < r.plannedEnd + r.allowance + d.csc.image.defaults.releaseGuard →
          holdingAt d x (fun _ => true) < 48 ∧ ∀ l, p = some l → holdingAt d x (fun b => decide (b.protection = some l)) < 4)
      ∧ ∀ j b, bookingAt d j = some b → holds b = true →
          r.start - r.lead < intervalEnd b →
          intervalFirst b < r.plannedEnd + r.allowance + d.csc.image.defaults.releaseGuard →
          b.working ≠ w ∧ b.protection ≠ some w ∧ (∀ l, p = some l → b.working ≠ l)
            ∧ (∀ l, p = some l → b.protection = some l → trunkOf b.working ≠ trunkOf w)
            ∧ ∀ q ∈ r.recipients, ∀ x ∈ b.recipients, x.val ≠ q

/-- BOOK_AMEND (R53, R54, R55): a PENDING booking that is not due takes its new times, allowance, recipients and lanes and
keeps its handle; every refusal leaves it as it was. The field index of a refusal by re-admission is the model's choice where
the field is not among the parameters (log entry 16). -/
def Obligations.AmendReadmitsPendingBooking : Prop :=
  ∀ (s : State) (p : PortId), Takes s.dev p .bookAmend → ∃ d', Answers .bookAmend s d'
    ∧ (let m := (window s.dev p).params
       let h := handleParam m 0
       (bookingOf s.dev h = none → AnsweredOnly p (failReply .noSuchBooking (some 0)) s.dev d')
        ∧ (∀ b, bookingOf s.dev h = some b → b.state ≠ .pending ∨ b.start - b.lead ≤ s.dev.tb.time.toNat →
            AnsweredOnly p (failReply .wrongState (some 0)) s.dev d')
        ∧ (∀ b x, bookingOf s.dev h = some b → b.state = .pending → s.dev.tb.time.toNat < b.start - b.lead →
            readmit s.dev h.slot b (amendParameters b m) = .error x →
            AnsweredOnly p (rejectionReply (amendOffset (min 8 (amendParameters b m).count)) x) s.dev d')
        ∧ (∀ b w pr, bookingOf s.dev h = some b → b.state = .pending → s.dev.tb.time.toNat < b.start - b.lead →
            readmit s.dev h.slot b (amendParameters b m) = .ok (w, pr) →
            (let r := amendParameters b m
             let b' := { b with
                working := w, protection := pr, recipients := recipientsOf r.recipients, start := r.start
                plannedEnd := r.plannedEnd, lead := r.lead, allowance := r.allowance
                guard := s.dev.csc.image.defaults.releaseGuard, tariff := s.dev.csc.image.tariffs.get b.tariffClass }
             d'.bkc.slots.get h.slot = ⟨h.generation, some b'⟩
              ∧ (∀ j, j ≠ h.slot → d'.bkc.slots.get j = s.dev.bkc.slots.get j)
              ∧ d'.bkc.nodeWait = s.dev.bkc.nodeWait ∧ d'.bkc.unbilled = s.dev.bkc.unbilled
              ∧ OnlyChanges [.bkc, .cpi] s.dev d' ∧ CursorKept p s.dev d' ∧ CommandNotified p bookingNotice s.dev d'
              ∧ Answered p (doneReply (admissionFields h b')) s.dev d')))

/-- BOOK_END (R66, R67, R70): a LIVE or OVERRUN booking closes now: its selector and its ports' claims are gone and its node
is released, and free or granted at once where it can be (R60, R95). Where its settlement is complete at the close (R170),
because it has no metered second or every one is taken and applied, its pending runs are resolved and it is charged in the
normal form and becomes UNBILLED, or its records are placed (R176, R184); otherwise it is SETTLING. In any other state the
command is refused. -/
def Obligations.EndClosesRunningBooking : Prop :=
  ∀ (s : State) (p : PortId), Takes s.dev p .bookEnd → ∃ d', Answers .bookEnd s d'
    ∧ (let h := handleParam (window s.dev p).params 0
       let now := s.dev.tb.time.toNat
       (bookingOf s.dev h = none → AnsweredOnly p (failReply .noSuchBooking (some 0)) s.dev d')
        ∧ (∀ b, bookingOf s.dev h = some b → b.state = .pending ∨ b.state = .armed →
            AnsweredOnly p (failReply .wrongState (some 0)) s.dev d')
        ∧ (∀ b, bookingOf s.dev h = some b → b.state = .settling ∨ b.state = .unbilled →
            AnsweredOnly p (failReply .tooLate (some 0)) s.dev d')
        ∧ (∀ b, bookingOf s.dev h = some b → b.state = .live ∨ b.state = .overrun →
            OnlyChanges [.bkc, .psu, .fcu, .svm, .fra, .bq, .cpi] s.dev d' ∧ CursorKept p s.dev d'
              ∧ selectorAt d' h.slot = none
              ∧ (∀ q ∈ b.recipients, ∀ c, (port d' q).live = some c → c.handle ≠ h)
              ∧ (∀ n, b.node = some n → (node d' n).owner ≠ some h) ∧ h.slot ∉ d'.bkc.nodeWait
              ∧ (let b' := { b with
                    state := .settling, closeTime := some now, endedEarly := decide (now < b.plannedEnd), node := none
                    nodeWait := false }
                 let complete (m : MeterRecord) : Prop := (now ≤ b.start ∨ now ≤ m.taken.toNat) ∧ m.queue = []
                 let final (m : MeterRecord) : List RecipientMeter := m.recipients.map settledMeter
                 (∀ m, s.dev.svm.records.get h.slot = some m → complete m →
                    BecomesUnbilled s.dev d' h.slot { b' with state := .unbilled, charges := (final m).map (normalCharge b') }
                      (some { m with recipients := final m }))
                  ∧ ((∀ m, s.dev.svm.records.get h.slot = some m → ¬complete m) →
                      d'.bkc.slots.get h.slot = ⟨h.generation, some b'⟩ ∧ d'.bkc.unbilled = s.dev.bkc.unbilled
                        ∧ d'.bq = s.dev.bq ∧ d'.svm.records.get h.slot = s.dev.svm.records.get h.slot))
              ∧ (FabricLaw s.dev → NodesReused (fun n => (node s.dev n).state = .draining ∨ b.node = some n)
                  s.dev.fcu.inFlight (s.dev.bkc.nodeWait.filter fun j => j ≠ h.slot) s.dev d')
              ∧ (∀ q, (window d' q).sticky &&& bookingNotice = bookingNotice)
              ∧ Answered p (doneReply [u2 (handleCode h), u4 now, u1 (shownState d' h.slot)]) s.dev d'))

/-- BOOK_CANCEL (R72, R73): a PENDING booking goes at once and free of charge. An ARMED one is cancelled late: every recipient
is charged in the late-cancel form (R181: the minimum minutes at the base rate, no credit, LATE_CANCEL and NEVER_CONNECTED, no
meters), its node is released, and the booking is UNBILLED at the tail of the list, its metering record without
snapshots and meters (R171), or, where the list was empty and the queue has room, its records with those charges stand behind
the queue (R184). In any other state the command is refused. -/
def Obligations.CancelFreesOrChargesLate : Prop :=
  ∀ (s : State) (p : PortId), Takes s.dev p .bookCancel → ∃ d', Answers .bookCancel s d'
    ∧ (let h := handleParam (window s.dev p).params 0
       let now := s.dev.tb.time.toNat
       (bookingOf s.dev h = none → AnsweredOnly p (failReply .noSuchBooking (some 0)) s.dev d')
        ∧ (∀ b, bookingOf s.dev h = some b → b.state = .live ∨ b.state = .overrun →
            AnsweredOnly p (failReply .wrongState (some 0)) s.dev d')
        ∧ (∀ b, bookingOf s.dev h = some b → b.state = .settling ∨ b.state = .unbilled →
            AnsweredOnly p (failReply .tooLate (some 0)) s.dev d')
        ∧ (∀ b, bookingOf s.dev h = some b → b.state = .pending →
            d'.bkc.slots.get h.slot = ⟨h.generation + 1, none⟩
              ∧ (∀ j, j ≠ h.slot → d'.bkc.slots.get j = s.dev.bkc.slots.get j)
              ∧ d'.bkc.nodeWait = s.dev.bkc.nodeWait ∧ d'.bkc.unbilled = s.dev.bkc.unbilled
              ∧ OnlyChanges [.bkc, .svm, .cpi] s.dev d' ∧ CursorKept p s.dev d'
              ∧ CommandNotified p bookingNotice s.dev d'
              ∧ Answered p (doneReply [u2 (handleCode h), u1 0]) s.dev d')
        ∧ (∀ b, bookingOf s.dev h = some b → b.state = .armed →
            OnlyChanges [.bkc, .psu, .fcu, .svm, .fra, .bq, .cpi] s.dev d' ∧ CursorKept p s.dev d'
              ∧ selectorAt d' h.slot = none
              ∧ (∀ q ∈ b.recipients, ∀ c, (port d' q).live = some c → c.handle ≠ h)
              ∧ (∀ n, b.node = some n → (node d' n).owner ≠ some h) ∧ h.slot ∉ d'.bkc.nodeWait
              ∧ BecomesUnbilled s.dev d' h.slot
                  { b with
                    state := .unbilled, closeTime := some now, lateCancel := true, node := none, nodeWait := false
                    charges := b.recipients.map fun _ =>
                      { gross := b.tariff.mmin * b.tariff.rb, credit := 0, net := b.tariff.mmin * b.tariff.rb
                        lateCancel := true, endedEarly := false, neverConnected := true, slaBreach := false
                        meters := ⟨0, 0, 0, 0, 0, 0, 0, 0⟩ } }
                  ((s.dev.svm.records.get h.slot).map fun m =>
                    { m with queue := [], recipients := b.recipients.map fun _ => freshRecipient })
              ∧ (TariffInRange b.tariff → b.tariff.mmin * b.tariff.rb ≤ 15728400)
              ∧ (FabricLaw s.dev → NodesReused (fun n => (node s.dev n).state = .draining ∨ b.node = some n)
                  s.dev.fcu.inFlight (s.dev.bkc.nodeWait.filter fun j => j ≠ h.slot) s.dev d')
              ∧ (∀ q, (window d' q).sticky &&& bookingNotice = bookingNotice)
              ∧ Answered p (doneReply [u2 (handleCode h), u4 now, u1 (shownState d' h.slot)]) s.dev d'))

/-- BOOK_EXTEND (R75, R76): a holding booking takes the new allowance, and OVERRUN_WARNED clears when it grows; every refusal
leaves it as it was. The field index of a conflict is the model's choice (log entry 16). -/
def Obligations.ExtendRaisesAllowance : Prop :=
  ∀ (s : State) (p : PortId), Takes s.dev p .bookExtend → ∃ d', Answers .bookExtend s d'
    ∧ (let m := (window s.dev p).params
       let h := handleParam m 0
       let a := param m 2 2
       (bookingOf s.dev h = none → AnsweredOnly p (failReply .noSuchBooking (some 0)) s.dev d')
        ∧ (∀ b, bookingOf s.dev h = some b → b.state = .settling ∨ b.state = .unbilled →
            AnsweredOnly p (failReply .tooLate (some 0)) s.dev d')
        ∧ (∀ b, bookingOf s.dev h = some b → holds b = true →
            (let bad : Prop := a < b.allowance ∨ 7200 < a ∨ 4294967295 < b.plannedEnd + a + b.guard
                ∨ ((b.state = .live ∨ b.state = .overrun) ∧ b.plannedEnd + a ≤ s.dev.tb.time.toNat)
             (bad → AnsweredOnly p (failReply .badParameter (some 2)) s.dev d')
              ∧ (∀ lanes, ¬bad →
                  checkReservation s.dev (some h.slot) b.venue (.explicit b.working)
                    ((b.protection.map LaneSpec.explicit).getD .none) b.recipients (b.start - b.lead)
                    (b.plannedEnd + a + b.guard) = .ok lanes →
                  d'.bkc.slots.get h.slot
                      = ⟨h.generation, some { b with
                          allowance := a, overrunWarned := b.overrunWarned && decide (a = b.allowance) }⟩
                    ∧ (∀ j, j ≠ h.slot → d'.bkc.slots.get j = s.dev.bkc.slots.get j)
                    ∧ d'.bkc.nodeWait = s.dev.bkc.nodeWait ∧ d'.bkc.unbilled = s.dev.bkc.unbilled
                    ∧ OnlyChanges [.bkc, .cpi] s.dev d' ∧ CursorKept p s.dev d'
                    ∧ CommandNotified p bookingNotice s.dev d'
                    ∧ Answered p (doneReply [u2 (handleCode h), u2 a, u4 (b.plannedEnd + a + b.guard)]) s.dev d')
              ∧ (∀ x, ¬bad →
                  checkReservation s.dev (some h.slot) b.venue (.explicit b.working)
                    ((b.protection.map LaneSpec.explicit).getD .none) b.recipients (b.start - b.lead)
                    (b.plannedEnd + a + b.guard) = .error x →
                  AnsweredOnly p (rejectionReply (submitOffset b.recipients.length) x) s.dev d'))))

/-- BOOK_QUERY, METER_READ and CONFIG_READ answer from what the part holds and change nothing else; they are refused for a
stale handle, a PENDING booking, an unknown section (R15, R78, R173). That an unknown section identifier is named as the
offending field is log entry 52. -/
def Obligations.ReadingCommandsChangeNothing : Prop :=
  ∀ (s : State) (p : PortId),
    (let m := (window s.dev p).params
     let h := handleParam m 0
     (Takes s.dev p .bookQuery → ∃ d' r, Answers .bookQuery s d' ∧ AnsweredOnly p r s.dev d'
        ∧ (bookingOf s.dev h = none → r = failReply .noSuchBooking (some 0))
        ∧ (∀ b, bookingOf s.dev h = some b → r.result = .done ∧ r.field = none
            ∧ r.response.take 2 = [h.generation, BitVec.ofNat 8 (bookingStateCode (some b.state))]))
      ∧ (Takes s.dev p .meterRead → ∃ d' r, Answers .meterRead s d' ∧ AnsweredOnly p r s.dev d'
        ∧ (bookingOf s.dev h = none → r = failReply .noSuchBooking (some 0))
        ∧ (∀ b, bookingOf s.dev h = some b → b.state = .pending → r = failReply .wrongState (some 0))
        ∧ (∀ b x, bookingOf s.dev h = some b → b.state ≠ .pending → s.dev.svm.records.get h.slot = some x →
            r.result = .done ∧ r.field = none
              ∧ r.response.take 3
                  = [BitVec.ofNat 8 h.slot.val, h.generation, BitVec.ofNat 8 (bookingStateCode (some b.state))]))
      ∧ (Takes s.dev p .configRead → ∃ d' r, Answers .configRead s d' ∧ AnsweredOnly p r s.dev d'
        ∧ (sectionOf (param m 0 1) = none → r = failReply .badParameter (some 0))
        ∧ (∀ c, sectionOf (param m 0 1) = some c → r = doneReply (sectionFields s.dev.csc.image c
            ++ [u2 s.dev.csc.restart.toNat, u1 (if s.dev.csc.unsaved then 1 else 0)]))))

/-! ### The configuration -/

/-- CONFIG_WRITE (R12, R13, R14): the section is replaced whole, the unsaved indication is set, and the response shows the
section as stored; any refusal leaves the RAM image and the indication as they were. Where signal-fail changes with a section,
the selectors follow it (R105 to R111, R149). Every setting is stored as R9 and R6 have it, and a FLAP_LIMIT that a DEFAULTS
write brings on quarantines its trunk where its action says so (R131, R150). Where the section's fields begin in the
parameter area is the model's reading (log entry 21), and so is which offending field is named first (log entry 20), and that
an unknown section identifier is named (log entry 52). -/
def Obligations.ConfigWriteReplacesSection : Prop :=
  ∀ (s : State) (p : PortId), Takes s.dev p .configWrite → ∃ d', Answers .configWrite s d'
    ∧ (let m := (window s.dev p).params
       (sectionOf (param m 0 1) = none → AnsweredOnly p (failReply .badParameter (some 0)) s.dev d')
        ∧ (∀ c, sectionOf (param m 0 1) = some c →
            (let body := readFields windowBlank m 1 (sectionWidths c)
             (∀ i, readSection c body s.dev.csc.image = .error i →
                AnsweredOnly p (failReply .badParameter (some i)) s.dev d')
              ∧ (∀ img i, readSection c body s.dev.csc.image = .ok img → inUse s.dev c img = some i →
                AnsweredOnly p (failReply .inUse (some (bodyOffset body i))) s.dev d')
              ∧ (∀ img, readSection c body s.dev.csc.image = .ok img → inUse s.dev c img = none →
                d'.csc = { s.dev.csc with image := img, unsaved := true }
                  ∧ OnlyChanges [.csc, .lmn, .fra, .psu, .fcu, .cpi] s.dev d' ∧ CursorKept p s.dev d'
                  ∧ (c = .venueMap ∨ c = .portMap ∨ c = .roles ∨ c = .tariffs →
                      OnlyChanges [.csc, .cpi] s.dev d' ∧ CommandNotified p 0#7 s.dev d')
                  ∧ (c = .profiles ∨ c = .calibration → OnlyChanges [.csc, .lmn, .cpi] s.dev d'
                      ∧ CommandNotified p 0#7 s.dev d' ∧ ∀ t, line d' t = resetRuns (line s.dev t))
                  ∧ (c = .defaults → ∀ t, line d' t = { line s.dev t with
                      flapLimit := decide (img.defaults.flapLimit < (line s.dev t).flapCounter)
                      cleanTimer := some (s.dev.tb.clock + 2 ^ img.defaults.flapExponent * 1000) })
                  ∧ (c = .defaults → ∀ t, OnsetMoves t s.dev d'
                      ∧ hasSource (record d' (trunkRecord t)).present srcFlapLimit = (line d' t).flapLimit)
                  ∧ (c = .actions → d'.fra.trunks = s.dev.fra.trunks)
                  ∧ (let v := bodyValue body
                     (c = .profiles → ∀ n : Fin 4, ProfileStored (signed16 (v (5 * n.val))) (signed16 (v (5 * n.val + 1)))
                        (signed16 (v (5 * n.val + 2))) (v (5 * n.val + 3)) (v (5 * n.val + 4)) (img.profiles.get n))
                      ∧ (c = .calibration → ∀ t, OffsetStored (signed16 (v t.val)) (img.calibration.get t))
                      ∧ (c = .actions → ∀ i a, actionOf (v i.val) = some a → ActionStored i a (img.actions.get i))
                      ∧ (c = .tariffs → ∀ n : Fin 16, TariffStored (v (6 * n.val)) (v (6 * n.val + 1)) (v (6 * n.val + 2))
                          (v (6 * n.val + 3)) (v (6 * n.val + 4)) (v (6 * n.val + 5)) (img.tariffs.get n))
                      ∧ (c = .defaults → DefaultsStored v img.defaults))
                  ∧ (c = .actions ∨ c = .defaults →
                      (∀ l, laneFailed d' l = signalFail d' l) ∧ (SelectorLaw s.dev → LanesTaken s.dev d'))
                  ∧ Answered p (doneReply (sectionFields img c)) s.dev d'))))

/-- CONFIG_SAVE (R16, R19) holds the engine, TAKEN and without a result, while the RAM image is written. Verified within 400
ms it ends DONE, clears the unsaved indication and STORE_FAULT, and DEFAULTS becomes RUNNING; otherwise it ends FAILED with
STORE_FAILED and an onset of STORE_FAULT, and the RAM image, the indication and the status stay. That a write verified at
exactly 400 ms is in time is log entry 25. -/
def Obligations.SaveHoldsTheEngineUntilItEnds : Prop :=
  (∀ (s : State) (p : PortId), Takes s.dev p .configSave → ∃ d', Answers .configSave s d'
    ∧ OnlyChanges [.csc, .cpi] s.dev d' ∧ d'.cpi.serving = some p ∧ d'.cpi.pointer = nextPort p
    ∧ d'.cpi.status = s.dev.cpi.status ∧ d'.cpi.phase = s.dev.cpi.phase
    ∧ d'.csc = { s.dev.csc with
        writing := some ⟨imageBytes s.dev.csc.image s.dev.csc.restart, s.dev.tb.clock⟩ }
    ∧ (∃ code, postedCode s.dev p = some code
        ∧ window d' p = { window s.dev p with command := .taken, code := code, result := none, field := none })
    ∧ (∀ q, q ≠ p → window d' q = window s.dev q) ∧ chosenPort d' = none)
  ∧ (∀ (s : State) (p : PortId) (w : StoreWrite) (result : StoreResult), s.dev.cpi.serving = some p →
    s.dev.csc.writing = some w → ∃ d', Answers (.configSaveEnd result) s d'
      ∧ OnlyChanges [.tb, .csc, .fra, .cpi] s.dev d' ∧ d'.csc.image = s.dev.csc.image
      ∧ d'.csc.restart = s.dev.csc.restart ∧ d'.csc.writing = none ∧ d'.cpi.serving = none
      ∧ OtherRecordsKept deviceRecord s.dev d' ∧ CommandNotified p 0#7 s.dev d'
      ∧ (∀ q, q ≠ p → window d' q = { window s.dev q with sticky := (window d' q).sticky })
      ∧ (window d' p).params = (window s.dev p).params ∧ (window d' p).response = []
      ∧ (result = .verified → s.dev.tb.clock ≤ w.started + 400 →
          (window d' p).command = .done ∧ (window d' p).result = some .done ∧ d'.csc.unsaved = false
            ∧ (∀ i, i < imageSize → Memory.read flashBlank d'.csc.flash i = w.bytes.getD i 0xFF#8)
            ∧ hasSource (record d' deviceRecord).present srcStoreFault = false
            ∧ (record d' deviceRecord).latched = (record s.dev deviceRecord).latched
            ∧ d'.cpi.status = (if s.dev.cpi.status = .defaults then .running else s.dev.cpi.status))
      ∧ (result = .eraseRefused ∨ (∃ n, result = .writeRefused n) ∨ (∃ cut, result = .timedOut cut)
            ∨ (∃ found, result = .differs found ∧ found ≠ w.bytes) ∨ w.started + 400 < s.dev.tb.clock →
          (window d' p).command = .failed ∧ (window d' p).result = some .storeFailed
            ∧ d'.csc.unsaved = s.dev.csc.unsaved ∧ d'.cpi.status = s.dev.cpi.status
            ∧ hasSource (record d' deviceRecord).present srcStoreFault = true
            ∧ hasSource (record d' deviceRecord).latched srcStoreFault = true))

/-- DEVICE_RESTART (R199, R200): accepted, the part is reset and the flash keeps what it holds; with force clear and a booking
ARMED, LIVE or OVERRUN it is refused IN_USE and nothing changes. In HALTED it is accepted whatever its parameter and
without the role check. That every force byte but 0 is set is the model's choice (log entry 12). -/
def Obligations.RestartResetsUnlessInUse : Prop :=
  ∀ (s : State) (p : PortId),
    (let running : Prop := ∃ i b, bookingAt s.dev i = some b ∧ (b.state = .armed ∨ b.state = .live ∨ b.state = .overrun)
     let force : Prop := param (window s.dev p).params 0 1 ≠ 0
     (Takes s.dev p .deviceRestart → force ∨ ¬running →
        Answers .deviceRestart s (resetDevice s.dev.csc.flash))
      ∧ (Takes s.dev p .deviceRestart → ¬force → running →
        ∃ d', Answers .deviceRestart s d' ∧ AnsweredOnly p (failReply .inUse (some 0)) s.dev d')
      ∧ (chosenPort s.dev = some p → (postedCode s.dev p).bind commandOf = some .deviceRestart →
          s.dev.cpi.status = .halted →
          Answers .deviceRestart s (resetDevice s.dev.csc.flash)))

/-- PROFILE_WRITE in both forms and CAL_WRITE (R4, R5, R9, R135): the clamped settings are stored, the filter runs of the
trunks concerned are reset with their conditions kept, and nothing else of the image changes. The form byte stands at offset
0 (R4, R201); an unknown form is the model's matter and no clause speaks of it (log entry 15). That a trunk or profile number
above its range is named as the offending field is log entry 52; which field is named of two faults, the trunk before the
profile number and the profile number before the order of the levels, is the model's choice too (log entry 41). -/
def Obligations.LineSettingsAreClampedAndStored : Prop :=
  ∀ (s : State) (p : PortId),
    (let m := (window s.dev p).params
     let img := s.dev.csc.image
     (Takes s.dev p .profileWrite → param m 0 1 = 0 → ∃ d', Answers .profileWriteLevels s d'
        ∧ (4 ≤ param m 1 1 → AnsweredOnly p (failReply .badParameter (some 1)) s.dev d')
        ∧ (∀ n : Fin 4, param m 1 1 = n.val →
            (let x := clampProfile (signed16 (param m 2 2)) (signed16 (param m 4 2)) (signed16 (param m 6 2))
                (param m 8 1) (param m 9 1)
             ProfileStored (signed16 (param m 2 2)) (signed16 (param m 4 2)) (signed16 (param m 6 2)) (param m 8 1)
                (param m 9 1) x
              ∧ (x.warnLow ≤ x.alarmLow → AnsweredOnly p (failReply .badParameter (some 2)) s.dev d')
              ∧ (x.alarmLow < x.warnLow → x.alarmHigh ≤ x.warnLow →
                  AnsweredOnly p (failReply .badParameter (some 6)) s.dev d')
              ∧ (x.alarmLow < x.warnLow → x.warnLow < x.alarmHigh →
                  d'.csc = { s.dev.csc with image := { img with profiles := img.profiles.set n.val x n.isLt }, unsaved := true }
                    ∧ OnlyChanges [.csc, .lmn, .cpi] s.dev d' ∧ CommandNotified p 0#7 s.dev d'
                    ∧ (∀ t, line d' t = if img.choices.get t = n then resetRuns (line s.dev t) else line s.dev t)
                    ∧ Answered p (doneReply (profileFields x)) s.dev d'))))
      ∧ (Takes s.dev p .profileWrite → param m 0 1 = 1 → ∃ d', Answers .profileWriteSelect s d'
        ∧ (∀ (t : Trunk) (n : Fin 4), param m 1 1 = t.val → param m 2 1 = n.val →
            d'.csc = { s.dev.csc with image := { img with choices := img.choices.set t.val n t.isLt }, unsaved := true }
              ∧ OnlyChanges [.csc, .lmn, .cpi] s.dev d' ∧ CommandNotified p 0#7 s.dev d'
              ∧ (∀ u, line d' u = if u = t then resetRuns (line s.dev u) else line s.dev u)
              ∧ Answered p (doneReply [u1 n.val]) s.dev d')
        ∧ (16 ≤ param m 1 1 → AnsweredOnly p (failReply .badParameter (some 1)) s.dev d')
        ∧ (param m 1 1 < 16 → 4 ≤ param m 2 1 → AnsweredOnly p (failReply .badParameter (some 2)) s.dev d'))
      ∧ (Takes s.dev p .calWrite → ∃ d', Answers .calWrite s d'
        ∧ (∀ t : Trunk, param m 0 1 = t.val →
            (let v := clampOffset (signed16 (param m 2 2))
             d'.csc = { s.dev.csc with image := { img with calibration := img.calibration.set t.val v t.isLt }, unsaved := true }
              ∧ -75 ≤ v ∧ v ≤ 75 ∧ v % 5 = 0 ∧ OffsetStored (signed16 (param m 2 2)) v
              ∧ OnlyChanges [.csc, .lmn, .cpi] s.dev d' ∧ CommandNotified p 0#7 s.dev d'
              ∧ (∀ u, line d' u = if u = t then resetRuns (line s.dev u) else line s.dev u)
              ∧ Answered p (doneReply [s2 v]) s.dev d'))
        ∧ (16 ≤ param m 0 1 → AnsweredOnly p (failReply .badParameter (some 0)) s.dev d')))

/-- TARIFF_WRITE and ACTION_WRITE (R6, R9, R148, R175): the clamped class, and the action or NOTIFY in place of one not
allowed, are stored; no snapshot changes; signal-fail and the selectors follow the new action at once (R149, R105 to R111).
An index, a source that is not of the class, and an unknown action are refused, each at its field. -/
def Obligations.TariffAndActionAreStored : Prop :=
  ∀ (s : State) (p : PortId),
    (let m := (window s.dev p).params
     let img := s.dev.csc.image
     (Takes s.dev p .tariffWrite → ∃ d', Answers .tariffWrite s d'
        ∧ (∀ n : Fin 16, param m 0 1 = n.val →
            (let x := clampTariff (param m 2 2) (param m 4 2) (param m 6 2) (param m 8 1) (param m 9 1) (param m 10 2)
             d'.csc = { s.dev.csc with image := { img with tariffs := img.tariffs.set n.val x n.isLt }, unsaved := true }
              ∧ TariffInRange x
              ∧ TariffStored (param m 2 2) (param m 4 2) (param m 6 2) (param m 8 1) (param m 9 1) (param m 10 2) x
              ∧ OnlyChanges [.csc, .cpi] s.dev d' ∧ CommandNotified p 0#7 s.dev d'
              ∧ Answered p (doneReply (tariffFields x)) s.dev d'))
        ∧ (16 ≤ param m 0 1 → AnsweredOnly p (failReply .badParameter (some 0)) s.dev d'))
      ∧ (Takes s.dev p .actionWrite → ∃ d', Answers .actionWrite s d'
        ∧ (∀ (low high : Nat) (i : Fin 22) (a : Action), classRange (param m 0 1) = some (low, high) →
            param m 1 1 = i.val → low ≤ i.val → i.val < high → actionOf (param m 2 1) = some a →
            d'.csc = { s.dev.csc with
                image := { img with actions := img.actions.set i.val (allowedAction i a) i.isLt }, unsaved := true }
              ∧ ActionStored i a (allowedAction i a) ∧ OnlyChanges [.csc, .fra, .psu, .fcu, .cpi] s.dev d' ∧ d'.fra.trunks = s.dev.fra.trunks
              ∧ OtherRecordsKept deviceRecord s.dev d' ∧ (∀ l, laneFailed d' l = signalFail d' l)
              ∧ (SelectorLaw s.dev → LanesTaken s.dev d')
              ∧ Answered p (doneReply [u1 (actionCode (allowedAction i a))]) s.dev d')
        ∧ (3 ≤ param m 0 1 → AnsweredOnly p (failReply .badParameter (some 0)) s.dev d')
        ∧ (∀ low high : Nat, classRange (param m 0 1) = some (low, high) →
            (param m 1 1 < low ∨ high ≤ param m 1 1 → AnsweredOnly p (failReply .badParameter (some 1)) s.dev d')
              ∧ (low ≤ param m 1 1 → param m 1 1 < high → actionOf (param m 2 1) = none →
                  AnsweredOnly p (failReply .badParameter (some 2)) s.dev d'))))

/-! ### Fabric and protection commands -/

/-- PORT_TEST and PORT_UNTEST (R83, R84, R85): the TEST claim appears or goes and no other claim changes; PORT_TEST is refused
for a port that a holding booking lists while its reserved interval contains now. FABRIC_RESYNC (R97): every confirmed value
becomes UNKNOWN, stuck and established marks clear, no node stays FREE, and owners, claims and desired values stay. How a
response shows the claims and marks is log entries 12 and 18. -/
def Obligations.FabricCommandsChangeTheirEntries : Prop :=
  (∀ (s : State) (p : PortId),
    (let v := param (window s.dev p).params 0 1
     let blocks (q : HandoffPort) (b : Booking) : Prop := holds b = true ∧ q ∈ b.recipients
        ∧ b.start - b.lead ≤ s.dev.tb.time.toNat ∧ s.dev.tb.time.toNat < b.plannedEnd + b.allowance + b.guard
     (Takes s.dev p .portTest → ∃ d', Answers .portTest s d'
        ∧ (32 ≤ v → AnsweredOnly p (failReply .badParameter (some 0)) s.dev d')
        ∧ (∀ q : HandoffPort, v = q.val → (∀ i b, bookingAt s.dev i = some b → ¬blocks q b) →
            OnlyChanges [.fcu, .cpi] s.dev d' ∧ CommandNotified p 0#7 s.dev d'
              ∧ d'.fcu.nodes = s.dev.fcu.nodes
              ∧ (port d' q).test = true ∧ (port d' q).live = (port s.dev q).live
              ∧ (port d' q).confirmed = (port s.dev q).confirmed
              ∧ (∀ x, x ≠ q → port d' x = port s.dev x)
              ∧ Answered p (doneReply (claimFields d' q)) s.dev d')
        ∧ (∀ (q : HandoffPort) (i : SlotId) (b : Booking), v = q.val → bookingAt s.dev i = some b → blocks q b →
            (∀ j, j < i → ∀ c, bookingAt s.dev j = some c → ¬blocks q c) →
            AnsweredOnly p ⟨.portConflict, some 0, pack 0 [u2 (handleCode (handleAt s.dev i))]⟩ s.dev d'))
      ∧ (Takes s.dev p .portUntest → ∃ d', Answers .portUntest s d'
        ∧ (32 ≤ v → AnsweredOnly p (failReply .badParameter (some 0)) s.dev d')
        ∧ (∀ q : HandoffPort, v = q.val →
            OnlyChanges [.fcu, .cpi] s.dev d' ∧ CommandNotified p 0#7 s.dev d'
              ∧ d'.fcu.nodes = s.dev.fcu.nodes
              ∧ (port d' q).test = false ∧ (port d' q).live = (port s.dev q).live
              ∧ (port d' q).confirmed = (port s.dev q).confirmed
              ∧ (∀ x, x ≠ q → port d' x = port s.dev x)
              ∧ Answered p (doneReply (claimFields d' q)) s.dev d'))))
  ∧ (∀ (s : State) (p : PortId), Takes s.dev p .fabricResync → ∃ d', Answers .fabricResync s d'
    ∧ OnlyChanges [.fcu, .svm, .cpi] s.dev d' ∧ CommandNotified p 0#7 s.dev d' ∧ Answered p (doneReply []) s.dev d'
    ∧ (∀ n, node d' n = { node s.dev n with
        confirmed := .unknown, stuck := false, established := false
        state := if (node s.dev n).state = .free then .draining else (node s.dev n).state })
    ∧ (∀ q, port d' q = { port s.dev q with confirmed := .unknown, stuck := false })
    ∧ (∀ o, s.dev.fcu.inFlight = some o → d'.fcu.inFlight = some o))

/-- PROT_FORCE, PROT_LOCK and PROT_CLEAR (R113 to R116). A stale handle and a booking in another state than ARMED, LIVE or
OVERRUN are refused. On a booking with a selector, where they apply the selector enters its state, with no timer and
BOTH_FAILED clear, leaves a waiting list, and a forced one holds its lane; a lock of the holder releases the lane, which a
healthy lane's arbiter grants to the first waiting booking in need (R119). PROT_CLEAR gives the state that the lanes then call
for. Where they do not apply they are refused, or end DONE with no change. A selector that holds its lane does not stand on
that lane's waiting list. -/
def Obligations.ManualProtectionCommands : Prop :=
  ∀ (s : State) (p : PortId),
    (let h := handleParam (window s.dev p).params 0
     let clock := s.dev.tb.clock
     let defaults := s.dev.csc.image.defaults
     (∀ (c : Command) (i : Instr),
        (c = .protForce ∧ i = .protForce) ∨ (c = .protLock ∧ i = .protLock) ∨ (c = .protClear ∧ i = .protClear) →
        Takes s.dev p c → ∃ d', Answers i s d'
          ∧ (bookingOf s.dev h = none → AnsweredOnly p (failReply .noSuchBooking (some 0)) s.dev d')
          ∧ (∀ b, bookingOf s.dev h = some b →
              (b.state = .pending → AnsweredOnly p (failReply .wrongState (some 0)) s.dev d')
                ∧ (b.state = .settling ∨ b.state = .unbilled →
                    AnsweredOnly p (failReply .tooLate (some 0)) s.dev d')))
      ∧ ∀ (b : Booking) (x : Selector),
      bookingOf s.dev h = some b → running b = true → selectorAt s.dev h.slot = some x → x.handle = h →
      (Takes s.dev p .protForce → ∃ d', Answers .protForce s d'
        ∧ (x.state = .unprotected ∨ x.state = .lockedWorking →
            AnsweredOnly p (failReply .wrongState (some 0)) s.dev d')
        ∧ (x.state = .forcedProtection → selectorAt d' h.slot = some x ∧ (window d' p).command = .done)
        ∧ (∀ l, x.protection = some l → x.state ≠ .unprotected → x.state ≠ .lockedWorking → x.state ≠ .forcedProtection →
            (laneFailed s.dev l = true ∨ laneQuarantined s.dev l = true ∨ freeFor s.dev l h = false →
              AnsweredOnly p (failReply .protectionConflict (some 0)) s.dev d')
            ∧ (laneFailed s.dev l = false → laneQuarantined s.dev l = false →
                (lane s.dev l).holder = (if holdsLane x.state then some h else none) →
              OnlyChanges [.psu, .fcu, .fra, .cpi] s.dev d'
                ∧ selectorAt d' h.slot = some { x with state := .forcedProtection, timer := none, bothFailed := false }
                ∧ (lane d' l).holder = some h ∧ (window d' p).command = .done
                ∧ (x.state = .waiting → (lane d' l).waiting = (lane s.dev l).waiting.filter fun w => w.handle ≠ h))))
      ∧ (Takes s.dev p .protLock → ∃ d', Answers .protLock s d'
        ∧ (x.state = .unprotected ∨ x.state = .forcedProtection →
            AnsweredOnly p (failReply .wrongState (some 0)) s.dev d')
        ∧ (x.state = .lockedWorking → selectorAt d' h.slot = some x ∧ (window d' p).command = .done)
        ∧ (x.state ≠ .unprotected → x.state ≠ .forcedProtection → x.state ≠ .lockedWorking →
            (∀ l, x.protection = some l → holdsLane x.state = true → ∀ w ∈ (lane s.dev l).waiting, w.handle.slot ≠ h.slot) →
            OnlyChanges [.psu, .fcu, .fra, .cpi] s.dev d'
              ∧ selectorAt d' h.slot = some { x with state := .lockedWorking, timer := none, bothFailed := false }
              ∧ (window d' p).command = .done
              ∧ (∀ l, x.protection = some l →
                  (x.state = .waiting → (lane d' l).waiting = (lane s.dev l).waiting.filter fun w => w.handle ≠ h)
                  ∧ (holdsLane x.state = true → laneFailed s.dev l = true ∨ (∀ w y, ¬FirstInNeed s.dev l w y) →
                      (lane d' l).holder = none ∧ (lane d' l).waiting = (lane s.dev l).waiting)
                  ∧ (∀ w y, holdsLane x.state = true → laneFailed s.dev l = false → FirstInNeed s.dev l w y →
                      Awaits l w y → Granted l w y s.dev d'))))
      ∧ (Takes s.dev p .protClear → ∃ d', Answers .protClear s d' ∧ (window d' p).command = .done
        ∧ OnlyChanges [.psu, .fcu, .fra, .cpi] s.dev d'
        ∧ (x.state ≠ .lockedWorking → x.state ≠ .forcedProtection → selectorAt d' h.slot = some x)
        ∧ (x.state = .lockedWorking → laneFailed s.dev x.working = false →
            selectorAt d' h.slot = some { x with state := .onWorking, timer := none })
        ∧ (∀ l, x.protection = some l →
            (let healthy (y : Lane) : Prop := laneFailed s.dev y = false
             let quarantined : Prop := laneQuarantined s.dev l = true
             let holdOff := b.holdOff.getD defaults.holdOff
             let wtr := b.wtr.getD defaults.wtr
             let becomes (state : SelectorState) (timer : Option SelectorTimer) (both : Bool) : Prop :=
                selectorAt d' h.slot = some { x with state := state, timer := timer, bothFailed := both }
             (x.state = .lockedWorking → ¬healthy x.working →
                (0 < holdOff → becomes .holdOff (some ⟨.holdOff, clock + holdOff⟩) false)
                ∧ (holdOff = 0 → ¬healthy l ∨ quarantined → becomes .onWorking none true)
                ∧ (holdOff = 0 → healthy l → ¬quarantined → freeFor s.dev l h = true →
                    becomes .onProtection none false ∧ (lane d' l).holder = some h)
                ∧ (holdOff = 0 → healthy l → ¬quarantined → freeFor s.dev l h = false → becomes .waiting none false))
             ∧ (x.state = .forcedProtection → ¬healthy x.working →
                (lane d' l).holder = (lane s.dev l).holder
                ∧ (healthy l → ¬quarantined → becomes .onProtection none x.bothFailed)
                ∧ (¬healthy l ∨ quarantined → becomes .onProtection none true))
             ∧ (x.state = .forcedProtection → healthy x.working →
                (healthy l → ¬quarantined → (lane d' l).holder = (lane s.dev l).holder
                  ∧ (wtr = 0 → becomes .onProtection none false)
                  ∧ (0 < wtr → becomes .waitRestore (some ⟨.waitToRestore, clock + wtr * 1000⟩) false))
                ∧ (quarantined → becomes .onWorking none false)
                ∧ (¬healthy l → ¬quarantined →
                    (0 < holdOff → becomes .onProtection (some ⟨.returnTimer, clock + holdOff⟩) false
                      ∧ (lane d' l).holder = (lane s.dev l).holder)
                    ∧ (holdOff = 0 → becomes .onWorking none false ∧ (lane d' l).holder = none)))))))

/-! ### Fault records -/

/-- TRUNK_QUARANTINE and TRUNK_RELEASE (R149 to R151): the service state and the QUARANTINED condition change together, a
release zeroes the flap counter and restarts the clean interval, and the lanes' signal-fail reaches the PSU and the selectors
at once (R102, R105 to R111). The layout of the record in the response is log entries 14, 18 and
68. -/
def Obligations.QuarantineAndRelease : Prop :=
  ∀ (s : State) (p : PortId),
    (let v := param (window s.dev p).params 0 1
     (Takes s.dev p .trunkQuarantine → ∃ d', Answers .trunkQuarantine s d'
        ∧ (16 ≤ v → AnsweredOnly p (failReply .badParameter (some 0)) s.dev d')
        ∧ (∀ t : Trunk, v = t.val →
            OnlyChanges [.fra, .psu, .fcu, .cpi] s.dev d' ∧ (d'.fra.trunks.get t).service = .quarantined
              ∧ (∀ u, u ≠ t → d'.fra.trunks.get u = s.dev.fra.trunks.get u)
              ∧ ((s.dev.fra.trunks.get t).service = .normal →
                  hasSource (record d' (trunkRecord t)).present srcQuarantined = true)
              ∧ (∀ i, laneFailed d' (laneOf t i) = true) ∧ (∀ l, laneFailed d' l = signalFail d' l)
              ∧ (SelectorLaw s.dev → LanesTaken s.dev d')
              ∧ Answered p (doneReply (recordFields d' (trunkRecord t))) s.dev d'))
      ∧ (Takes s.dev p .trunkRelease → ∃ d', Answers .trunkRelease s d'
        ∧ (16 ≤ v → AnsweredOnly p (failReply .badParameter (some 0)) s.dev d')
        ∧ (∀ t : Trunk, v = t.val → LineRecordLaw s.dev →
            OnlyChanges [.lmn, .fra, .psu, .fcu, .cpi] s.dev d' ∧ (d'.fra.trunks.get t).service = .normal
              ∧ (∀ u, u ≠ t → d'.fra.trunks.get u = s.dev.fra.trunks.get u)
              ∧ hasSource (record d' (trunkRecord t)).present srcQuarantined = false
              ∧ (line d' t).flapCounter = 0
              ∧ (line d' t).cleanTimer
                  = some (s.dev.tb.clock + 2 ^ s.dev.csc.image.defaults.flapExponent * 1000)
              ∧ (∀ u, u ≠ t → line d' u = line s.dev u) ∧ (∀ l, laneFailed d' l = signalFail d' l)
              ∧ (SelectorLaw s.dev → LanesTaken s.dev d')
              ∧ Answered p (doneReply (recordFields d' (trunkRecord t) ++ [u1 0])) s.dev d')))

/-- FAULT_CLEAR, the mask commands and GROUP_WRITE (R153, R154, R155): on every record of the target the named sources of its
class, and on no other record; a source still present is latched again; a new mask reaches the PSU's view and the selectors at
once. Of the device record a mask command fixes the mask alone here: the lane events may begin or end SHARED_PROTECTION_DENIED
on it. A target or a source set that names nothing there is is refused. MASK_WRITE unmasks wholly a record of the target that
has no named source (R155; log entry 54). How a target is packed is the model's reading (log entry 13), and that the response
is a list with its count is log entry 47. -/
def Obligations.TargetCommandsChangeTheirRecords : Prop :=
  ∀ (s : State) (p : PortId),
    (let m := (window s.dev p).params
     (∀ rs set, targetOf s.dev m = .ok rs → sourceSetOf m 4 = some set →
        (let change (f : SourceSet → FaultRecord → FaultRecord) (r : Fin 49) : FaultRecord :=
            if r ∈ rs then f (set &&& classSources r) (record s.dev r) else record s.dev r
         let masks (c : Instr) (f : SourceSet → SourceSet → SourceSet) : Prop := ∃ d', Answers c s d'
            ∧ OnlyChanges [.fra, .psu, .fcu, .cpi] s.dev d' ∧ d'.fra.trunks = s.dev.fra.trunks
            ∧ Answered p (doneReply (listField (rs.map fun r => u4 (record d' r).mask.toNat) rs.length)) s.dev d'
            ∧ (∀ l, laneFailed d' l = signalFail d' l) ∧ (SelectorLaw s.dev → LanesTaken s.dev d')
            ∧ (∀ r, (record d' r).mask = (change (fun n x => { x with mask := f x.mask n }) r).mask)
            ∧ (∀ r, r ≠ deviceRecord → record d' r = change (fun n x => { x with mask := f x.mask n }) r)
         (Takes s.dev p .faultClear → ∃ d', Answers .faultClear s d' ∧ OnlyChanges [.fra, .cpi] s.dev d'
            ∧ d'.fra.trunks = s.dev.fra.trunks ∧ CommandNotified p 0#7 s.dev d'
            ∧ (∀ r, record d' r = change (fun n x =>
                { x with latched := (x.latched &&& ~~~n) ||| (x.latched &&& n &&& x.present) }) r)
            ∧ Answered p (doneReply (listField (rs.map fun r => u4 (record d' r).latched.toNat) rs.length)) s.dev d')
          ∧ (Takes s.dev p .maskSet → masks .maskSet fun old n => old ||| n)
          ∧ (Takes s.dev p .maskClear → masks .maskClear fun old n => old &&& ~~~n)
          ∧ (Takes s.dev p .maskWrite → masks .maskWrite fun _ n => n)))
      ∧ (∀ (c : Command) (e : Instr), (c = .faultClear ∧ e = .faultClear) ∨ (c = .maskSet ∧ e = .maskSet)
            ∨ (c = .maskClear ∧ e = .maskClear) ∨ (c = .maskWrite ∧ e = .maskWrite) → Takes s.dev p c →
          ∃ d', Answers e s d'
            ∧ (∀ i, targetOf s.dev m = .error i → AnsweredOnly p (failReply .badParameter (some i)) s.dev d')
            ∧ (∀ rs, targetOf s.dev m = .ok rs → sourceSetOf m 4 = none →
                AnsweredOnly p (failReply .badParameter (some 4)) s.dev d'))
      ∧ (Takes s.dev p .groupWrite → ∃ d', Answers .groupWrite s d'
        ∧ (∀ i, recordOf (param m 0 1) (param m 1 1) = .error i →
            AnsweredOnly p (failReply .badParameter (some i)) s.dev d')
        ∧ (∀ r, recordOf (param m 0 1) (param m 1 1) = .ok r → 128 ≤ param m 2 1 ∨ 4 < groupCount (param m 2 1) →
            AnsweredOnly p (failReply .badParameter (some 2)) s.dev d')
        ∧ (∀ r, recordOf (param m 0 1) (param m 1 1) = .ok r → param m 2 1 < 128 → groupCount (param m 2 1) ≤ 4 →
            OnlyChanges [.fra, .cpi] s.dev d' ∧ d'.fra.trunks = s.dev.fra.trunks ∧ OtherRecordsKept r s.dev d'
              ∧ record d' r = { record s.dev r with groups := BitVec.ofNat 8 (param m 2 1) ||| 0x80#8 }
              ∧ CommandNotified p 0#7 s.dev d'
              ∧ Answered p (doneReply [u1 (BitVec.ofNat 8 (param m 2 1) ||| 0x80#8).toNat]) s.dev d')))

/-! ### Metering and charging -/

/-- A recipient's second, when its snapshot is applied: its grade (R166), the meters that rise at grading and connected-seen
(R167), and how the availability state books it or keeps it pending (R168, R169). -/
def Obligations.RecipientSecondIsGraded : Prop :=
  ∀ (x : Snapshot) (v : RecipientView) (r : RecipientMeter) (plannedEnd : Nat), ready x = true →
    (let r' := gradeRecipient plannedEnd x v r
     ∃ y, r'.last = some y ∧ y.second = x.second ∧ y.defect = x.defect
      ∧ r'.meters.metered = r.meters.metered + 1
      ∧ (plannedEnd ≤ x.second.toNat → r'.meters.overrun = r.meters.overrun + 1)
      ∧ (x.second.toNat < plannedEnd → r'.meters.overrun = r.meters.overrun)
      ∧ (∀ lg, x.graded = some lg → x.lane ≠ none →
          r'.meters.unmonitored = r.meters.unmonitored + (if lg.unmonitored = true then 1 else 0))
      ∧ (x.lane = none → r'.meters.unmonitored = r.meters.unmonitored)
      ∧ (r'.connectedSeen = true ↔ r.connectedSeen = true ∨ v.connected = true)
      ∧ (let g := y.grade
         (v.connected = false ∨ x.lane = none ∨ v.txFault = true → g = .severe)
          ∧ (∀ lg, x.graded = some lg → v.connected = true → x.lane ≠ none → v.txFault = false →
              (lg.grade = .clean → x.switchHit = true → g = .errored)
                ∧ (¬(lg.grade = .clean ∧ x.switchHit = true) → g = lg.grade))
          ∧ (r.availability = .available → g = .severe → r.run + 1 < 10 →
              r'.availability = .available ∧ r'.run = r.run + 1 ∧ Books r.meters r'.meters 0 0 0 0 0)
          ∧ (r.availability = .available → g = .severe → r.run + 1 = 10 →
              r'.availability = .unavailable ∧ r'.run = 0 ∧ r'.runClean = 0 ∧ r'.runErrored = 0 ∧ r'.runSource = 0
                ∧ Books r.meters r'.meters 0 0 0 10 0)
          ∧ (r.availability = .available → g ≠ .severe →
              r'.availability = .available ∧ r'.run = 0
                ∧ Books r.meters r'.meters (one g .clean) (one g .errored) r.run 0 (one g .source))
          ∧ (r.availability = .unavailable → g ≠ .severe → r.run + 1 < 10 →
              r'.availability = .unavailable ∧ r'.run = r.run + 1 ∧ r'.runClean = r.runClean + one g .clean
                ∧ r'.runErrored = r.runErrored + one g .errored ∧ r'.runSource = r.runSource + one g .source
                ∧ Books r.meters r'.meters 0 0 0 0 0)
          ∧ (r.availability = .unavailable → g ≠ .severe → r.run + 1 = 10 →
              r'.availability = .available ∧ r'.run = 0
                ∧ Books r.meters r'.meters (r.runClean + one g .clean) (r.runErrored + one g .errored) 0 0
                    (r.runSource + one g .source))
          ∧ (r.availability = .unavailable → g = .severe →
              r'.availability = .unavailable ∧ r'.run = 0 ∧ Books r.meters r'.meters 0 0 0 (r.run + 1) 0)))

/-- The charge of a recipient in the normal form: its gross amount (R178), its credit and net (R179) and its flags (R180). -/
def Obligations.ChargeIsComputedExactly : Prop :=
  ∀ (b : Booking) (r : RecipientMeter), TariffInRange b.tariff → b.start + 60 ≤ b.plannedEnd →
    b.plannedEnd ≤ b.start + 43200 → r.meters.overrun ≤ 7200 →
    (let x := b.tariff
     let sb := b.plannedEnd - b.start
     let so := r.meters.overrun
     let su := r.meters.unavailable
     let sd := r.meters.errored + r.meters.severe
     let c := normalCharge b r
     (∃ mb mo extra : Nat, c.gross = mb * x.rb + extra
        ∧ sb ≤ 60 * mb ∧ 60 * mb < sb + 60 ∧ 1 ≤ mb ∧ mb ≤ 720
        ∧ so ≤ 60 * mo ∧ 60 * mo < so + 60 ∧ mo ≤ 120
        ∧ mo * x.rb * x.fo ≤ 100 * extra ∧ 100 * extra < mo * x.rb * x.fo + 100
        ∧ mb * x.rb ≤ 47185200 ∧ mo * x.rb * x.fo ≤ 3145680000 ∧ extra ≤ 31456800 ∧ c.gross ≤ 78642000
        ∧ (so = 0 → mo = 0 ∧ extra = 0))
      ∧ (∃ cu cg : Nat, 6000 * cu ≤ su * x.rb * x.co ∧ su * x.rb * x.co < 6000 * cu + 6000
        ∧ 6000 * cg ≤ sd * x.rb * x.cd ∧ sd * x.rb * x.cd < 6000 * cg + 6000 ∧ c.credit = min (cu + cg) c.gross)
      ∧ c.net + c.credit = c.gross
      ∧ (x.rb = 0 → c.gross = 0 ∧ c.credit = 0 ∧ c.net = 0)
      ∧ (c.slaBreach = true ↔ x.us < su) ∧ c.endedEarly = b.endedEarly ∧ c.neverConnected = !r.connectedSeen
      ∧ c.lateCancel = false ∧ c.meters = r.meters)

/-- BILL_FETCH copies records from the head and removes nothing; BILL_RELEASE removes every record up to the named one, and
only those, when the serial is held (R183, R185 to R187). What waits on the unbilled list is then placed, as far as its head
fits: each booking's records stand at the tail with the next serials, and its slot is FREE (R182, R184). The widths of the
response's fields are log entries 18 and 59; that the serial shown is that of the head before the placement is log entry 66. -/
def Obligations.BillsAreFetchedAndReleased : Prop :=
  ∀ (s : State) (p : PortId),
    (let m := (window s.dev p).params
     let q := s.dev.bq.queue
     (Takes s.dev p .billFetch → ∃ d', Answers .billFetch s d'
        ∧ (param m 0 1 = 0 ∨ 8 < param m 0 1 → AnsweredOnly p (failReply .badParameter (some 0)) s.dev d')
        ∧ (1 ≤ param m 0 1 → param m 0 1 ≤ 8 → q = [] → AnsweredOnly p (failReply .queueEmpty none) s.dev d')
        ∧ (1 ≤ param m 0 1 → param m 0 1 ≤ 8 → q ≠ [] →
            AnsweredOnly p (doneReply ([u1 (min (param m 0 1) q.length), u2 q.length, u4 s.dev.bq.nextSerial.toNat]
              ++ (q.take (param m 0 1)).flatMap billFields)) s.dev d'))
      ∧ (Takes s.dev p .billRelease → ∃ d', Answers .billRelease s d'
        ∧ (q = [] → AnsweredOnly p (failReply .notInQueue (some 0)) s.dev d')
        ∧ (∀ head rest, q = head :: rest →
            (let k := (BitVec.ofNat 32 (param m 0 4) - head.serial).toNat
             (q.length ≤ k → AnsweredOnly p (failReply .notInQueue (some 0)) s.dev d')
              ∧ (k < q.length → OnlyChanges [.bkc, .svm, .bq, .fra, .cpi] s.dev d' ∧ OtherRecordsKept deviceRecord s.dev d'
                  ∧ (let d1 := placeList s.dev.bkc.unbilled
                        { s.dev with bq := ⟨q.drop (k + 1), s.dev.bq.nextSerial⟩ }
                     d'.bq = d1.bq ∧ d'.bkc = d1.bkc ∧ d'.svm = d1.svm)
                  ∧ (UnbilledLaw s.dev → ∃ placed waiting, s.dev.bkc.unbilled = placed ++ waiting
                      ∧ d'.bkc.unbilled = waiting
                      ∧ d'.bq.queue = q.drop (k + 1) ++ placedRecords s.dev s.dev.bq.nextSerial placed
                      ∧ d'.bq.nextSerial = s.dev.bq.nextSerial
                          + BitVec.ofNat 32 (placedRecords s.dev s.dev.bq.nextSerial placed).length
                      ∧ (∀ i ∈ placed, d'.bkc.slots.get i = ⟨(s.dev.bkc.slots.get i).generation + 1, none⟩
                          ∧ d'.svm.records.get i = none)
                      ∧ (∀ i, i ∉ placed → d'.bkc.slots.get i = s.dev.bkc.slots.get i
                          ∧ d'.svm.records.get i = s.dev.svm.records.get i)
                      ∧ (∀ i after b, waiting = i :: after → bookingAt s.dev i = some b →
                          512 < d'.bq.queue.length + b.recipients.length)
                      ∧ CommandNotified p (if placed = [] then 0#7 else billingNotice) s.dev d')
                  ∧ (hasSource (record d' deviceRecord).present srcBillQueueHigh = true ↔ 448 ≤ d'.bq.queue.length)
                  ∧ Answered p (doneReply ([u2 (k + 1), u2 (q.drop (k + 1)).length]
                      ++ optField 4 ((q.drop (k + 1)).head?.map fun r => r.serial.toNat))) s.dev d')))))

/-! ### Tables and notices -/

/-- TABLE_READ and TABLE_NEXT (R195, R196): a refusal leaves the cursor; a read moves it to the index after the last entry
returned, or to end; neither changes anything else of the part. The layouts of the entries are log entries 12, 14, 17, 18, 27,
42, 43, 44, 50, 51, 53, 58, 59, 61 and 64, the width of the first index and the place of the count behind it log entry 56, and
the first index of the response at end log entry 28. -/
def Obligations.TableReadsMoveTheCursor : Prop :=
  ∀ (s : State) (p : PortId),
    (let m := (window s.dev p).params
     (Takes s.dev p .tableRead → ∃ d', Answers .tableRead s d' ∧ OnlyChanges [.cpi] s.dev d'
        ∧ CommandNotified p 0#7 s.dev d'
        ∧ (tableOf (param m 0 1) = none → AnsweredOnly p (failReply .badParameter (some 0)) s.dev d')
        ∧ (∀ t, tableOf (param m 0 1) = some t →
            (tableRange t ≤ param m 2 2 → AnsweredOnly p (failReply .badParameter (some 2)) s.dev d')
            ∧ (param m 2 2 < tableRange t → param m 4 1 = 0 →
                AnsweredOnly p (failReply .badParameter (some 4)) s.dev d')
            ∧ (param m 2 2 < tableRange t → 0 < param m 4 1 →
                (let n := min (param m 4 1) (entriesPerResponse t)
                 let es := tableEntries s.dev t (param m 2 2)
                 let next := nextIndex (es.take n) (es.drop n)
                 (window d' p).cursor = some ⟨t, next⟩
                  ∧ Answered p ⟨.done, none, tableResponse s.dev t (param m 2 2) (es.take n) next⟩ s.dev d'))))
      ∧ (Takes s.dev p .tableNext → ∃ d', Answers .tableNext s d' ∧ OnlyChanges [.cpi] s.dev d'
        ∧ CommandNotified p 0#7 s.dev d'
        ∧ (param m 0 1 = 0 → AnsweredOnly p (failReply .badParameter (some 0)) s.dev d')
        ∧ (0 < param m 0 1 → (window s.dev p).cursor = none → AnsweredOnly p (failReply .wrongState none) s.dev d')
        ∧ (∀ t, 0 < param m 0 1 → (window s.dev p).cursor = some ⟨t, none⟩ →
            (window d' p).cursor = some ⟨t, none⟩ ∧ Answered p ⟨.done, none, tableResponse s.dev t 0xFFFF [] none⟩ s.dev d')
        ∧ (∀ t first, 0 < param m 0 1 → (window s.dev p).cursor = some ⟨t, some first⟩ →
            (let n := min (param m 0 1) (entriesPerResponse t)
             let es := tableEntries s.dev t first
             let next := nextIndex (es.take n) (es.drop n)
             (window d' p).cursor = some ⟨t, next⟩
              ∧ Answered p ⟨.done, none, tableResponse s.dev t first (es.take n) next⟩ s.dev d'))))

/-- NOTICE_CLEAR (R158): COMMAND is set first, then the named sticky flags of the posting port are removed; the other ports'
flags and the level classes stay, and the response shows the flags and the notice word after the command. -/
def Obligations.NoticeClearRemovesNamedFlags : Prop :=
  ∀ (s : State) (p : PortId), Takes s.dev p .noticeClear → ∃ d', Answers .noticeClear s d'
    ∧ OnlyChanges [.cpi] s.dev d' ∧ Answered p
        (doneReply [u1 (window d' p).sticky.toNat, u1 (noticeWord d' p).toNat]) s.dev d'
    ∧ CursorKept p s.dev d' ∧ (∀ q, q ≠ p → window d' q = window s.dev q)
    ∧ (∀ i, i < 4 → (window d' p).sticky.getLsbD i
        = (((window s.dev p).sticky.getLsbD i || decide (i = 3)) && !(param (window s.dev p).params 0 1).testBit i))
    ∧ levelClasses d' = levelClasses s.dev
end

