-- ==== Sys2Proof/Laws/State.lean ====
section
/-! SUPPORT. One lemma for each block and each update: what an update of one block leaves alone; and how an entry of a table
reads after an update. -/

namespace Sys2Proof.Machine

/-! ### Tables -/

/-- An updated entry. -/
@[simp] theorem upd_get_same {α : Type} {n : Nat} (v : Vector α n) (i : Fin n) (f : α → α) :
    (upd v i f).get i = f (v.get i) := by
  show (v.set i.val (f (v.get i)) i.isLt)[i.val] = _
  rw [Vector.getElem_set_self]

/-- Another entry. -/
theorem upd_get_ne {α : Type} {n : Nat} (v : Vector α n) {i j : Fin n} (h : j ≠ i) (f : α → α) :
    (upd v i f).get j = v.get j := by
  have h' : i.val ≠ j.val := fun e => h (Fin.ext e.symm)
  show (v.set i.val (f (v.get i)) i.isLt)[j.val] = v[j.val]
  rw [Vector.getElem_set_ne _ _ h']

/-- Any entry. -/
theorem upd_get {α : Type} {n : Nat} (v : Vector α n) (i j : Fin n) (f : α → α) :
    (upd v i f).get j = if j = i then f (v.get i) else v.get j := by
  by_cases h : j = i
  · subst h; simp
  · rw [upd_get_ne v h, if_neg h]

/-- An entry of a table made by a function. -/
@[simp] theorem ofFn_get {α : Type} {n : Nat} (f : Fin n → α) (i : Fin n) : (Vector.ofFn f).get i = f i := by
  show (Vector.ofFn f)[i.val] = f i
  rw [Vector.getElem_ofFn]

/-- An entry of a mapped table. -/
@[simp] theorem map_get {α β : Type} {n : Nat} (f : α → β) (v : Vector α n) (i : Fin n) :
    (v.map f).get i = f (v.get i) := by
  show (v.map f)[i.val] = f v[i.val]
  rw [Vector.getElem_map]

/-- An entry of a table of equal entries. -/
@[simp] theorem replicate_get {α : Type} {n : Nat} (a : α) (i : Fin n) : (Vector.replicate n a).get i = a := by
  show (Vector.replicate n a)[i.val] = a
  rw [Vector.getElem_replicate]

/-! ### Blocks -/

@[simp] theorem updWindow_tb (p : PortId) (f : Window → Window) (d : Device) : (updWindow p f d).tb = d.tb := rfl
@[simp] theorem updWindow_owed (p : PortId) (f : Window → Window) (d : Device) : (updWindow p f d).owed = d.owed := rfl
@[simp] theorem updWindow_csc (p : PortId) (f : Window → Window) (d : Device) : (updWindow p f d).csc = d.csc := rfl
@[simp] theorem updWindow_bkc (p : PortId) (f : Window → Window) (d : Device) : (updWindow p f d).bkc = d.bkc := rfl
@[simp] theorem updWindow_psu (p : PortId) (f : Window → Window) (d : Device) : (updWindow p f d).psu = d.psu := rfl
@[simp] theorem updWindow_fcu (p : PortId) (f : Window → Window) (d : Device) : (updWindow p f d).fcu = d.fcu := rfl
@[simp] theorem updWindow_lmn (p : PortId) (f : Window → Window) (d : Device) : (updWindow p f d).lmn = d.lmn := rfl
@[simp] theorem updWindow_fra (p : PortId) (f : Window → Window) (d : Device) : (updWindow p f d).fra = d.fra := rfl
@[simp] theorem updWindow_svm (p : PortId) (f : Window → Window) (d : Device) : (updWindow p f d).svm = d.svm := rfl
@[simp] theorem updWindow_bq (p : PortId) (f : Window → Window) (d : Device) : (updWindow p f d).bq = d.bq := rfl

@[simp] theorem updSlot_tb (i : SlotId) (f : Slot → Slot) (d : Device) : (updSlot i f d).tb = d.tb := rfl
@[simp] theorem updSlot_owed (i : SlotId) (f : Slot → Slot) (d : Device) : (updSlot i f d).owed = d.owed := rfl
@[simp] theorem updSlot_csc (i : SlotId) (f : Slot → Slot) (d : Device) : (updSlot i f d).csc = d.csc := rfl
@[simp] theorem updSlot_cpi (i : SlotId) (f : Slot → Slot) (d : Device) : (updSlot i f d).cpi = d.cpi := rfl
@[simp] theorem updSlot_psu (i : SlotId) (f : Slot → Slot) (d : Device) : (updSlot i f d).psu = d.psu := rfl
@[simp] theorem updSlot_fcu (i : SlotId) (f : Slot → Slot) (d : Device) : (updSlot i f d).fcu = d.fcu := rfl
@[simp] theorem updSlot_lmn (i : SlotId) (f : Slot → Slot) (d : Device) : (updSlot i f d).lmn = d.lmn := rfl
@[simp] theorem updSlot_fra (i : SlotId) (f : Slot → Slot) (d : Device) : (updSlot i f d).fra = d.fra := rfl
@[simp] theorem updSlot_svm (i : SlotId) (f : Slot → Slot) (d : Device) : (updSlot i f d).svm = d.svm := rfl
@[simp] theorem updSlot_bq (i : SlotId) (f : Slot → Slot) (d : Device) : (updSlot i f d).bq = d.bq := rfl

@[simp] theorem updBooking_tb (i : SlotId) (f : Booking → Booking) (d : Device) : (updBooking i f d).tb = d.tb := rfl
@[simp] theorem updBooking_owed (i : SlotId) (f : Booking → Booking) (d : Device) : (updBooking i f d).owed = d.owed := rfl
@[simp] theorem updBooking_csc (i : SlotId) (f : Booking → Booking) (d : Device) : (updBooking i f d).csc = d.csc := rfl
@[simp] theorem updBooking_cpi (i : SlotId) (f : Booking → Booking) (d : Device) : (updBooking i f d).cpi = d.cpi := rfl
@[simp] theorem updBooking_psu (i : SlotId) (f : Booking → Booking) (d : Device) : (updBooking i f d).psu = d.psu := rfl
@[simp] theorem updBooking_fcu (i : SlotId) (f : Booking → Booking) (d : Device) : (updBooking i f d).fcu = d.fcu := rfl
@[simp] theorem updBooking_lmn (i : SlotId) (f : Booking → Booking) (d : Device) : (updBooking i f d).lmn = d.lmn := rfl
@[simp] theorem updBooking_fra (i : SlotId) (f : Booking → Booking) (d : Device) : (updBooking i f d).fra = d.fra := rfl
@[simp] theorem updBooking_svm (i : SlotId) (f : Booking → Booking) (d : Device) : (updBooking i f d).svm = d.svm := rfl
@[simp] theorem updBooking_bq (i : SlotId) (f : Booking → Booking) (d : Device) : (updBooking i f d).bq = d.bq := rfl

@[simp] theorem updNode_tb (n : FeedNode) (f : NodeEntry → NodeEntry) (d : Device) : (updNode n f d).tb = d.tb := rfl
@[simp] theorem updNode_owed (n : FeedNode) (f : NodeEntry → NodeEntry) (d : Device) : (updNode n f d).owed = d.owed := rfl
@[simp] theorem updNode_csc (n : FeedNode) (f : NodeEntry → NodeEntry) (d : Device) : (updNode n f d).csc = d.csc := rfl
@[simp] theorem updNode_cpi (n : FeedNode) (f : NodeEntry → NodeEntry) (d : Device) : (updNode n f d).cpi = d.cpi := rfl
@[simp] theorem updNode_bkc (n : FeedNode) (f : NodeEntry → NodeEntry) (d : Device) : (updNode n f d).bkc = d.bkc := rfl
@[simp] theorem updNode_psu (n : FeedNode) (f : NodeEntry → NodeEntry) (d : Device) : (updNode n f d).psu = d.psu := rfl
@[simp] theorem updNode_lmn (n : FeedNode) (f : NodeEntry → NodeEntry) (d : Device) : (updNode n f d).lmn = d.lmn := rfl
@[simp] theorem updNode_fra (n : FeedNode) (f : NodeEntry → NodeEntry) (d : Device) : (updNode n f d).fra = d.fra := rfl
@[simp] theorem updNode_svm (n : FeedNode) (f : NodeEntry → NodeEntry) (d : Device) : (updNode n f d).svm = d.svm := rfl
@[simp] theorem updNode_bq (n : FeedNode) (f : NodeEntry → NodeEntry) (d : Device) : (updNode n f d).bq = d.bq := rfl

@[simp] theorem updPort_tb (p : HandoffPort) (f : PortEntry → PortEntry) (d : Device) : (updPort p f d).tb = d.tb := rfl
@[simp] theorem updPort_owed (p : HandoffPort) (f : PortEntry → PortEntry) (d : Device) : (updPort p f d).owed = d.owed := rfl
@[simp] theorem updPort_csc (p : HandoffPort) (f : PortEntry → PortEntry) (d : Device) : (updPort p f d).csc = d.csc := rfl
@[simp] theorem updPort_cpi (p : HandoffPort) (f : PortEntry → PortEntry) (d : Device) : (updPort p f d).cpi = d.cpi := rfl
@[simp] theorem updPort_bkc (p : HandoffPort) (f : PortEntry → PortEntry) (d : Device) : (updPort p f d).bkc = d.bkc := rfl
@[simp] theorem updPort_psu (p : HandoffPort) (f : PortEntry → PortEntry) (d : Device) : (updPort p f d).psu = d.psu := rfl
@[simp] theorem updPort_lmn (p : HandoffPort) (f : PortEntry → PortEntry) (d : Device) : (updPort p f d).lmn = d.lmn := rfl
@[simp] theorem updPort_fra (p : HandoffPort) (f : PortEntry → PortEntry) (d : Device) : (updPort p f d).fra = d.fra := rfl
@[simp] theorem updPort_svm (p : HandoffPort) (f : PortEntry → PortEntry) (d : Device) : (updPort p f d).svm = d.svm := rfl
@[simp] theorem updPort_bq (p : HandoffPort) (f : PortEntry → PortEntry) (d : Device) : (updPort p f d).bq = d.bq := rfl

@[simp] theorem updLine_tb (t : Trunk) (f : Line → Line) (d : Device) : (updLine t f d).tb = d.tb := rfl
@[simp] theorem updLine_owed (t : Trunk) (f : Line → Line) (d : Device) : (updLine t f d).owed = d.owed := rfl
@[simp] theorem updLine_csc (t : Trunk) (f : Line → Line) (d : Device) : (updLine t f d).csc = d.csc := rfl
@[simp] theorem updLine_cpi (t : Trunk) (f : Line → Line) (d : Device) : (updLine t f d).cpi = d.cpi := rfl
@[simp] theorem updLine_bkc (t : Trunk) (f : Line → Line) (d : Device) : (updLine t f d).bkc = d.bkc := rfl
@[simp] theorem updLine_psu (t : Trunk) (f : Line → Line) (d : Device) : (updLine t f d).psu = d.psu := rfl
@[simp] theorem updLine_fcu (t : Trunk) (f : Line → Line) (d : Device) : (updLine t f d).fcu = d.fcu := rfl
@[simp] theorem updLine_fra (t : Trunk) (f : Line → Line) (d : Device) : (updLine t f d).fra = d.fra := rfl
@[simp] theorem updLine_svm (t : Trunk) (f : Line → Line) (d : Device) : (updLine t f d).svm = d.svm := rfl
@[simp] theorem updLine_bq (t : Trunk) (f : Line → Line) (d : Device) : (updLine t f d).bq = d.bq := rfl

@[simp] theorem updTransmitter_tb (p : HandoffPort) (f : Transmitter → Transmitter) (d : Device) : (updTransmitter p f d).tb = d.tb := rfl
@[simp] theorem updTransmitter_owed (p : HandoffPort) (f : Transmitter → Transmitter) (d : Device) : (updTransmitter p f d).owed = d.owed := rfl
@[simp] theorem updTransmitter_csc (p : HandoffPort) (f : Transmitter → Transmitter) (d : Device) : (updTransmitter p f d).csc = d.csc := rfl
@[simp] theorem updTransmitter_cpi (p : HandoffPort) (f : Transmitter → Transmitter) (d : Device) : (updTransmitter p f d).cpi = d.cpi := rfl
@[simp] theorem updTransmitter_bkc (p : HandoffPort) (f : Transmitter → Transmitter) (d : Device) : (updTransmitter p f d).bkc = d.bkc := rfl
@[simp] theorem updTransmitter_psu (p : HandoffPort) (f : Transmitter → Transmitter) (d : Device) : (updTransmitter p f d).psu = d.psu := rfl
@[simp] theorem updTransmitter_fcu (p : HandoffPort) (f : Transmitter → Transmitter) (d : Device) : (updTransmitter p f d).fcu = d.fcu := rfl
@[simp] theorem updTransmitter_fra (p : HandoffPort) (f : Transmitter → Transmitter) (d : Device) : (updTransmitter p f d).fra = d.fra := rfl
@[simp] theorem updTransmitter_svm (p : HandoffPort) (f : Transmitter → Transmitter) (d : Device) : (updTransmitter p f d).svm = d.svm := rfl
@[simp] theorem updTransmitter_bq (p : HandoffPort) (f : Transmitter → Transmitter) (d : Device) : (updTransmitter p f d).bq = d.bq := rfl

@[simp] theorem updRecord_tb (r : Fin 49) (f : FaultRecord → FaultRecord) (d : Device) : (updRecord r f d).tb = d.tb := rfl
@[simp] theorem updRecord_owed (r : Fin 49) (f : FaultRecord → FaultRecord) (d : Device) : (updRecord r f d).owed = d.owed := rfl
@[simp] theorem updRecord_csc (r : Fin 49) (f : FaultRecord → FaultRecord) (d : Device) : (updRecord r f d).csc = d.csc := rfl
@[simp] theorem updRecord_cpi (r : Fin 49) (f : FaultRecord → FaultRecord) (d : Device) : (updRecord r f d).cpi = d.cpi := rfl
@[simp] theorem updRecord_bkc (r : Fin 49) (f : FaultRecord → FaultRecord) (d : Device) : (updRecord r f d).bkc = d.bkc := rfl
@[simp] theorem updRecord_psu (r : Fin 49) (f : FaultRecord → FaultRecord) (d : Device) : (updRecord r f d).psu = d.psu := rfl
@[simp] theorem updRecord_fcu (r : Fin 49) (f : FaultRecord → FaultRecord) (d : Device) : (updRecord r f d).fcu = d.fcu := rfl
@[simp] theorem updRecord_lmn (r : Fin 49) (f : FaultRecord → FaultRecord) (d : Device) : (updRecord r f d).lmn = d.lmn := rfl
@[simp] theorem updRecord_svm (r : Fin 49) (f : FaultRecord → FaultRecord) (d : Device) : (updRecord r f d).svm = d.svm := rfl
@[simp] theorem updRecord_bq (r : Fin 49) (f : FaultRecord → FaultRecord) (d : Device) : (updRecord r f d).bq = d.bq := rfl

@[simp] theorem updTrunkFault_tb (t : Trunk) (f : TrunkFault → TrunkFault) (d : Device) : (updTrunkFault t f d).tb = d.tb := rfl
@[simp] theorem updTrunkFault_owed (t : Trunk) (f : TrunkFault → TrunkFault) (d : Device) : (updTrunkFault t f d).owed = d.owed := rfl
@[simp] theorem updTrunkFault_csc (t : Trunk) (f : TrunkFault → TrunkFault) (d : Device) : (updTrunkFault t f d).csc = d.csc := rfl
@[simp] theorem updTrunkFault_cpi (t : Trunk) (f : TrunkFault → TrunkFault) (d : Device) : (updTrunkFault t f d).cpi = d.cpi := rfl
@[simp] theorem updTrunkFault_bkc (t : Trunk) (f : TrunkFault → TrunkFault) (d : Device) : (updTrunkFault t f d).bkc = d.bkc := rfl
@[simp] theorem updTrunkFault_psu (t : Trunk) (f : TrunkFault → TrunkFault) (d : Device) : (updTrunkFault t f d).psu = d.psu := rfl
@[simp] theorem updTrunkFault_fcu (t : Trunk) (f : TrunkFault → TrunkFault) (d : Device) : (updTrunkFault t f d).fcu = d.fcu := rfl
@[simp] theorem updTrunkFault_lmn (t : Trunk) (f : TrunkFault → TrunkFault) (d : Device) : (updTrunkFault t f d).lmn = d.lmn := rfl
@[simp] theorem updTrunkFault_svm (t : Trunk) (f : TrunkFault → TrunkFault) (d : Device) : (updTrunkFault t f d).svm = d.svm := rfl
@[simp] theorem updTrunkFault_bq (t : Trunk) (f : TrunkFault → TrunkFault) (d : Device) : (updTrunkFault t f d).bq = d.bq := rfl

@[simp] theorem setSelector_tb (i : SlotId) (x : Option Selector) (d : Device) : (setSelector i x d).tb = d.tb := rfl
@[simp] theorem setSelector_owed (i : SlotId) (x : Option Selector) (d : Device) : (setSelector i x d).owed = d.owed := rfl
@[simp] theorem setSelector_csc (i : SlotId) (x : Option Selector) (d : Device) : (setSelector i x d).csc = d.csc := rfl
@[simp] theorem setSelector_cpi (i : SlotId) (x : Option Selector) (d : Device) : (setSelector i x d).cpi = d.cpi := rfl
@[simp] theorem setSelector_bkc (i : SlotId) (x : Option Selector) (d : Device) : (setSelector i x d).bkc = d.bkc := rfl
@[simp] theorem setSelector_fcu (i : SlotId) (x : Option Selector) (d : Device) : (setSelector i x d).fcu = d.fcu := rfl
@[simp] theorem setSelector_lmn (i : SlotId) (x : Option Selector) (d : Device) : (setSelector i x d).lmn = d.lmn := rfl
@[simp] theorem setSelector_fra (i : SlotId) (x : Option Selector) (d : Device) : (setSelector i x d).fra = d.fra := rfl
@[simp] theorem setSelector_svm (i : SlotId) (x : Option Selector) (d : Device) : (setSelector i x d).svm = d.svm := rfl
@[simp] theorem setSelector_bq (i : SlotId) (x : Option Selector) (d : Device) : (setSelector i x d).bq = d.bq := rfl

@[simp] theorem updLane_tb (l : Lane) (f : ProtectionLane → ProtectionLane) (d : Device) : (updLane l f d).tb = d.tb := rfl
@[simp] theorem updLane_owed (l : Lane) (f : ProtectionLane → ProtectionLane) (d : Device) : (updLane l f d).owed = d.owed := rfl
@[simp] theorem updLane_csc (l : Lane) (f : ProtectionLane → ProtectionLane) (d : Device) : (updLane l f d).csc = d.csc := rfl
@[simp] theorem updLane_cpi (l : Lane) (f : ProtectionLane → ProtectionLane) (d : Device) : (updLane l f d).cpi = d.cpi := rfl
@[simp] theorem updLane_bkc (l : Lane) (f : ProtectionLane → ProtectionLane) (d : Device) : (updLane l f d).bkc = d.bkc := rfl
@[simp] theorem updLane_fcu (l : Lane) (f : ProtectionLane → ProtectionLane) (d : Device) : (updLane l f d).fcu = d.fcu := rfl
@[simp] theorem updLane_lmn (l : Lane) (f : ProtectionLane → ProtectionLane) (d : Device) : (updLane l f d).lmn = d.lmn := rfl
@[simp] theorem updLane_fra (l : Lane) (f : ProtectionLane → ProtectionLane) (d : Device) : (updLane l f d).fra = d.fra := rfl
@[simp] theorem updLane_svm (l : Lane) (f : ProtectionLane → ProtectionLane) (d : Device) : (updLane l f d).svm = d.svm := rfl
@[simp] theorem updLane_bq (l : Lane) (f : ProtectionLane → ProtectionLane) (d : Device) : (updLane l f d).bq = d.bq := rfl

@[simp] theorem setMeter_tb (i : SlotId) (x : Option MeterRecord) (d : Device) : (setMeter i x d).tb = d.tb := rfl
@[simp] theorem setMeter_owed (i : SlotId) (x : Option MeterRecord) (d : Device) : (setMeter i x d).owed = d.owed := rfl
@[simp] theorem setMeter_csc (i : SlotId) (x : Option MeterRecord) (d : Device) : (setMeter i x d).csc = d.csc := rfl
@[simp] theorem setMeter_cpi (i : SlotId) (x : Option MeterRecord) (d : Device) : (setMeter i x d).cpi = d.cpi := rfl
@[simp] theorem setMeter_bkc (i : SlotId) (x : Option MeterRecord) (d : Device) : (setMeter i x d).bkc = d.bkc := rfl
@[simp] theorem setMeter_psu (i : SlotId) (x : Option MeterRecord) (d : Device) : (setMeter i x d).psu = d.psu := rfl
@[simp] theorem setMeter_fcu (i : SlotId) (x : Option MeterRecord) (d : Device) : (setMeter i x d).fcu = d.fcu := rfl
@[simp] theorem setMeter_lmn (i : SlotId) (x : Option MeterRecord) (d : Device) : (setMeter i x d).lmn = d.lmn := rfl
@[simp] theorem setMeter_fra (i : SlotId) (x : Option MeterRecord) (d : Device) : (setMeter i x d).fra = d.fra := rfl
@[simp] theorem setMeter_bq (i : SlotId) (x : Option MeterRecord) (d : Device) : (setMeter i x d).bq = d.bq := rfl

@[simp] theorem updMeter_tb (i : SlotId) (f : MeterRecord → MeterRecord) (d : Device) : (updMeter i f d).tb = d.tb := rfl
@[simp] theorem updMeter_owed (i : SlotId) (f : MeterRecord → MeterRecord) (d : Device) : (updMeter i f d).owed = d.owed := rfl
@[simp] theorem updMeter_csc (i : SlotId) (f : MeterRecord → MeterRecord) (d : Device) : (updMeter i f d).csc = d.csc := rfl
@[simp] theorem updMeter_cpi (i : SlotId) (f : MeterRecord → MeterRecord) (d : Device) : (updMeter i f d).cpi = d.cpi := rfl
@[simp] theorem updMeter_bkc (i : SlotId) (f : MeterRecord → MeterRecord) (d : Device) : (updMeter i f d).bkc = d.bkc := rfl
@[simp] theorem updMeter_psu (i : SlotId) (f : MeterRecord → MeterRecord) (d : Device) : (updMeter i f d).psu = d.psu := rfl
@[simp] theorem updMeter_fcu (i : SlotId) (f : MeterRecord → MeterRecord) (d : Device) : (updMeter i f d).fcu = d.fcu := rfl
@[simp] theorem updMeter_lmn (i : SlotId) (f : MeterRecord → MeterRecord) (d : Device) : (updMeter i f d).lmn = d.lmn := rfl
@[simp] theorem updMeter_fra (i : SlotId) (f : MeterRecord → MeterRecord) (d : Device) : (updMeter i f d).fra = d.fra := rfl
@[simp] theorem updMeter_bq (i : SlotId) (f : MeterRecord → MeterRecord) (d : Device) : (updMeter i f d).bq = d.bq := rfl

@[simp] theorem notifyAll_tb (c : NoticeSet) (d : Device) : (notifyAll c d).tb = d.tb := rfl
@[simp] theorem notifyAll_owed (c : NoticeSet) (d : Device) : (notifyAll c d).owed = d.owed := rfl
@[simp] theorem notifyAll_csc (c : NoticeSet) (d : Device) : (notifyAll c d).csc = d.csc := rfl
@[simp] theorem notifyAll_bkc (c : NoticeSet) (d : Device) : (notifyAll c d).bkc = d.bkc := rfl
@[simp] theorem notifyAll_psu (c : NoticeSet) (d : Device) : (notifyAll c d).psu = d.psu := rfl
@[simp] theorem notifyAll_fcu (c : NoticeSet) (d : Device) : (notifyAll c d).fcu = d.fcu := rfl
@[simp] theorem notifyAll_lmn (c : NoticeSet) (d : Device) : (notifyAll c d).lmn = d.lmn := rfl
@[simp] theorem notifyAll_fra (c : NoticeSet) (d : Device) : (notifyAll c d).fra = d.fra := rfl
@[simp] theorem notifyAll_svm (c : NoticeSet) (d : Device) : (notifyAll c d).svm = d.svm := rfl
@[simp] theorem notifyAll_bq (c : NoticeSet) (d : Device) : (notifyAll c d).bq = d.bq := rfl

@[simp] theorem advanceTo_owed (n : Nat) (d : Device) : (advanceTo n d).owed = d.owed := rfl
@[simp] theorem advanceTo_csc (n : Nat) (d : Device) : (advanceTo n d).csc = d.csc := rfl
@[simp] theorem advanceTo_cpi (n : Nat) (d : Device) : (advanceTo n d).cpi = d.cpi := rfl
@[simp] theorem advanceTo_bkc (n : Nat) (d : Device) : (advanceTo n d).bkc = d.bkc := rfl
@[simp] theorem advanceTo_psu (n : Nat) (d : Device) : (advanceTo n d).psu = d.psu := rfl
@[simp] theorem advanceTo_fcu (n : Nat) (d : Device) : (advanceTo n d).fcu = d.fcu := rfl
@[simp] theorem advanceTo_lmn (n : Nat) (d : Device) : (advanceTo n d).lmn = d.lmn := rfl
@[simp] theorem advanceTo_fra (n : Nat) (d : Device) : (advanceTo n d).fra = d.fra := rfl
@[simp] theorem advanceTo_svm (n : Nat) (d : Device) : (advanceTo n d).svm = d.svm := rfl
@[simp] theorem advanceTo_bq (n : Nat) (d : Device) : (advanceTo n d).bq = d.bq := rfl

@[simp] theorem setImage_tb (img : Image) (d : Device) : (setImage img d).tb = d.tb := rfl
@[simp] theorem setImage_owed (img : Image) (d : Device) : (setImage img d).owed = d.owed := rfl
@[simp] theorem setImage_cpi (img : Image) (d : Device) : (setImage img d).cpi = d.cpi := rfl
@[simp] theorem setImage_bkc (img : Image) (d : Device) : (setImage img d).bkc = d.bkc := rfl
@[simp] theorem setImage_psu (img : Image) (d : Device) : (setImage img d).psu = d.psu := rfl
@[simp] theorem setImage_fcu (img : Image) (d : Device) : (setImage img d).fcu = d.fcu := rfl
@[simp] theorem setImage_lmn (img : Image) (d : Device) : (setImage img d).lmn = d.lmn := rfl
@[simp] theorem setImage_fra (img : Image) (d : Device) : (setImage img d).fra = d.fra := rfl
@[simp] theorem setImage_svm (img : Image) (d : Device) : (setImage img d).svm = d.svm := rfl
@[simp] theorem setImage_bq (img : Image) (d : Device) : (setImage img d).bq = d.bq := rfl

@[simp] theorem setUnsaved_tb (d : Device) : (setUnsaved d).tb = d.tb := rfl
@[simp] theorem setUnsaved_owed (d : Device) : (setUnsaved d).owed = d.owed := rfl
@[simp] theorem setUnsaved_cpi (d : Device) : (setUnsaved d).cpi = d.cpi := rfl
@[simp] theorem setUnsaved_bkc (d : Device) : (setUnsaved d).bkc = d.bkc := rfl
@[simp] theorem setUnsaved_psu (d : Device) : (setUnsaved d).psu = d.psu := rfl
@[simp] theorem setUnsaved_fcu (d : Device) : (setUnsaved d).fcu = d.fcu := rfl
@[simp] theorem setUnsaved_lmn (d : Device) : (setUnsaved d).lmn = d.lmn := rfl
@[simp] theorem setUnsaved_fra (d : Device) : (setUnsaved d).fra = d.fra := rfl
@[simp] theorem setUnsaved_svm (d : Device) : (setUnsaved d).svm = d.svm := rfl
@[simp] theorem setUnsaved_bq (d : Device) : (setUnsaved d).bq = d.bq := rfl

@[simp] theorem setMeters_tb (d : Device) (f : SlotId → MeterRecord → MeterRecord) : (setMeters d f).tb = d.tb := by unfold setMeters; rfl
@[simp] theorem setMeters_owed (d : Device) (f : SlotId → MeterRecord → MeterRecord) : (setMeters d f).owed = d.owed := by unfold setMeters; rfl
@[simp] theorem setMeters_csc (d : Device) (f : SlotId → MeterRecord → MeterRecord) : (setMeters d f).csc = d.csc := by unfold setMeters; rfl
@[simp] theorem setMeters_cpi (d : Device) (f : SlotId → MeterRecord → MeterRecord) : (setMeters d f).cpi = d.cpi := by unfold setMeters; rfl
@[simp] theorem setMeters_bkc (d : Device) (f : SlotId → MeterRecord → MeterRecord) : (setMeters d f).bkc = d.bkc := by unfold setMeters; rfl
@[simp] theorem setMeters_psu (d : Device) (f : SlotId → MeterRecord → MeterRecord) : (setMeters d f).psu = d.psu := by unfold setMeters; rfl
@[simp] theorem setMeters_fcu (d : Device) (f : SlotId → MeterRecord → MeterRecord) : (setMeters d f).fcu = d.fcu := by unfold setMeters; rfl
@[simp] theorem setMeters_lmn (d : Device) (f : SlotId → MeterRecord → MeterRecord) : (setMeters d f).lmn = d.lmn := by unfold setMeters; rfl
@[simp] theorem setMeters_fra (d : Device) (f : SlotId → MeterRecord → MeterRecord) : (setMeters d f).fra = d.fra := by unfold setMeters; rfl
@[simp] theorem setMeters_bq (d : Device) (f : SlotId → MeterRecord → MeterRecord) : (setMeters d f).bq = d.bq := by unfold setMeters; rfl

/-! ### Entries -/

theorem portIndex_injective {p q : PortId} (h : portIndex p = portIndex q) : p = q := by
  cases p <;> cases q <;> first | rfl | exact absurd h (by decide)

@[simp] theorem window_updWindow_same (p : PortId) (f : Window → Window) (d : Device) :
    window (updWindow p f d) p = f (window d p) := upd_get_same _ _ _

theorem window_updWindow_ne {p q : PortId} (h : q ≠ p) (f : Window → Window) (d : Device) :
    window (updWindow p f d) q = window d q := upd_get_ne _ (fun e => h (portIndex_injective e)) _

@[simp] theorem window_notifyAll (c : NoticeSet) (d : Device) (q : PortId) :
    window (notifyAll c d) q = { window d q with sticky := (window d q).sticky ||| c } := map_get _ _ _

theorem record_updRecord (r q : Fin 49) (f : FaultRecord → FaultRecord) (d : Device) :
    record (updRecord r f d) q = if q = r then f (record d r) else record d q := upd_get _ _ _ _

@[simp] theorem updRecord_trunks (r : Fin 49) (f : FaultRecord → FaultRecord) (d : Device) :
    (updRecord r f d).fra.trunks = d.fra.trunks := rfl

@[simp] theorem updTrunkFault_records (t : Trunk) (f : TrunkFault → TrunkFault) (d : Device) :
    (updTrunkFault t f d).fra.records = d.fra.records := rfl

@[simp] theorem updNode_ports (n : FeedNode) (f : NodeEntry → NodeEntry) (d : Device) :
    (updNode n f d).fcu.ports = d.fcu.ports := rfl

@[simp] theorem updNode_inFlight (n : FeedNode) (f : NodeEntry → NodeEntry) (d : Device) :
    (updNode n f d).fcu.inFlight = d.fcu.inFlight := rfl

@[simp] theorem updPort_nodes (p : HandoffPort) (f : PortEntry → PortEntry) (d : Device) :
    (updPort p f d).fcu.nodes = d.fcu.nodes := rfl

@[simp] theorem updPort_inFlight (p : HandoffPort) (f : PortEntry → PortEntry) (d : Device) :
    (updPort p f d).fcu.inFlight = d.fcu.inFlight := rfl

theorem bookingAt_updSlot (i j : SlotId) (f : Slot → Slot) (d : Device) :
    bookingAt (updSlot i f d) j = if j = i then (f (d.bkc.slots.get i)).booking else bookingAt d j := by
  show ((upd d.bkc.slots i f).get j).booking = _
  rw [upd_get]; split <;> rfl

theorem bookingAt_updBooking (i j : SlotId) (f : Booking → Booking) (d : Device) :
    bookingAt (updBooking i f d) j = if j = i then (bookingAt d i).map f else bookingAt d j :=
  bookingAt_updSlot i j _ d

@[simp] theorem handleAt_updBooking (i j : SlotId) (f : Booking → Booking) (d : Device) :
    handleAt (updBooking i f d) j = handleAt d j := by
  show Handle.mk j ((upd d.bkc.slots i _).get j).generation = Handle.mk j (d.bkc.slots.get j).generation
  rw [upd_get]; split
  · next h => subst h; rfl
  · rfl

end Sys2Proof.Machine
end

