-- ==== Sys2Proof/Laws/Frames.lean ====
section
/-! SUPPORT. What each shared operation can change: one frame lemma per operation. `Quiet bs d d'` says that no block but
those of `bs` changes, and that the Control Port Interface changes by sticky flags alone. -/

namespace Sys2Proof.Machine

/-- Only the blocks `bs` change, and the Control Port Interface by sticky flags alone. -/
def Quiet (bs : List Block) (d d' : Device) : Prop := OnlyChanges bs d d' ∧ NoticesOnly d d'

theorem sameBlock_trans {b : Block} {d1 d2 d3 : Device} (h : SameBlock d1 d2 b) (h' : SameBlock d2 d3 b) :
    SameBlock d1 d3 b := by
  cases b <;> exact h'.trans h

theorem sameBlock_refl (b : Block) (d : Device) : SameBlock d d b := by cases b <;> rfl

theorem onlyChanges_refl (bs : List Block) (d : Device) : OnlyChanges bs d d := fun b _ => sameBlock_refl b d

theorem onlyChanges_trans {bs : List Block} {d1 d2 d3 : Device} (h : OnlyChanges bs d1 d2) (h' : OnlyChanges bs d2 d3) :
    OnlyChanges bs d1 d3 := fun b hb => sameBlock_trans (h b hb) (h' b hb)

theorem onlyChanges_mono {bs cs : List Block} {d d' : Device} (hs : ∀ b, b ∈ bs → b ∈ cs) (h : OnlyChanges bs d d') :
    OnlyChanges cs d d' := fun b hb => h b fun hm => hb (hs b hm)

theorem noticesOnly_refl (d : Device) : NoticesOnly d d := ⟨fun _ => rfl, rfl, rfl, rfl, rfl, rfl⟩

theorem noticesOnly_trans {d1 d2 d3 : Device} (h : NoticesOnly d1 d2) (h' : NoticesOnly d2 d3) : NoticesOnly d1 d3 := by
  obtain ⟨a1, a2, a3, a4, a5, a6⟩ := h
  obtain ⟨b1, b2, b3, b4, b5, b6⟩ := h'
  refine ⟨fun q => ?_, b2.trans a2, b3.trans a3, b4.trans a4, b5.trans a5, b6.trans a6⟩
  have h1 := a1 q
  have h2 := b1 q
  rw [h1] at h2
  exact h2

/-- A device whose Control Port Interface is the same has no new notice. -/
theorem noticesOnly_of_cpi {d d' : Device} (h : d'.cpi = d.cpi) : NoticesOnly d d' := by
  have hw : ∀ q, window d' q = window d q := fun q => by unfold window; rw [h]
  exact ⟨fun q => by rw [hw q], by rw [h], by rw [h], by rw [h], by rw [h], by rw [h]⟩

theorem notifyAll_noticesOnly (c : NoticeSet) (d : Device) : NoticesOnly d (notifyAll c d) :=
  ⟨fun q => by rw [window_notifyAll], rfl, rfl, rfl, rfl, rfl⟩

theorem quiet_refl (bs : List Block) (d : Device) : Quiet bs d d := ⟨onlyChanges_refl bs d, noticesOnly_refl d⟩

theorem quiet_trans {bs : List Block} {d1 d2 d3 : Device} (h : Quiet bs d1 d2) (h' : Quiet bs d2 d3) : Quiet bs d1 d3 :=
  ⟨onlyChanges_trans h.1 h'.1, noticesOnly_trans h.2 h'.2⟩

theorem quiet_mono {bs cs : List Block} {d d' : Device} (hs : ∀ b, b ∈ bs → b ∈ cs) (h : Quiet bs d d') : Quiet cs d d' :=
  ⟨onlyChanges_mono hs h.1, h.2⟩

/-- A fold of steps each of which is quiet is quiet. -/
theorem quiet_foldl {α : Type} {bs : List Block} {f : Device → α → Device} (hf : ∀ d x, Quiet bs d (f d x)) (xs : List α)
    (d : Device) : Quiet bs d (xs.foldl f d) := by
  induction xs generalizing d with
  | nil => exact quiet_refl bs d
  | cons x xs ih => exact quiet_trans (hf d x) (ih (f d x))

/-- One block changes. -/
theorem quiet_one {b : Block} {d d' : Device} (h : OnlyChanges [b] d d') (hb : b ≠ .cpi) : Quiet [b] d d' :=
  ⟨h, noticesOnly_of_cpi (h .cpi (by simpa using fun e => hb e.symm))⟩

/-! ### The updates of the tables -/

theorem updSlot_quiet (i : SlotId) (f : Slot → Slot) (d : Device) : Quiet [.bkc] d (updSlot i f d) :=
  quiet_one (fun b hb => by cases b <;> first | rfl | exact absurd (by decide) hb) (by decide)

theorem updBooking_quiet (i : SlotId) (f : Booking → Booking) (d : Device) : Quiet [.bkc] d (updBooking i f d) :=
  updSlot_quiet i _ d

theorem updNode_quiet (n : FeedNode) (f : NodeEntry → NodeEntry) (d : Device) : Quiet [.fcu] d (updNode n f d) :=
  quiet_one (fun b hb => by cases b <;> first | rfl | exact absurd (by decide) hb) (by decide)

theorem updPort_quiet (p : HandoffPort) (f : PortEntry → PortEntry) (d : Device) : Quiet [.fcu] d (updPort p f d) :=
  quiet_one (fun b hb => by cases b <;> first | rfl | exact absurd (by decide) hb) (by decide)

theorem updLine_quiet (t : Trunk) (f : Line → Line) (d : Device) : Quiet [.lmn] d (updLine t f d) :=
  quiet_one (fun b hb => by cases b <;> first | rfl | exact absurd (by decide) hb) (by decide)

theorem updTransmitter_quiet (p : HandoffPort) (f : Transmitter → Transmitter) (d : Device) :
    Quiet [.lmn] d (updTransmitter p f d) :=
  quiet_one (fun b hb => by cases b <;> first | rfl | exact absurd (by decide) hb) (by decide)

theorem updRecord_quiet (r : Fin 49) (f : FaultRecord → FaultRecord) (d : Device) : Quiet [.fra] d (updRecord r f d) :=
  quiet_one (fun b hb => by cases b <;> first | rfl | exact absurd (by decide) hb) (by decide)

theorem updTrunkFault_quiet (t : Trunk) (f : TrunkFault → TrunkFault) (d : Device) : Quiet [.fra] d (updTrunkFault t f d) :=
  quiet_one (fun b hb => by cases b <;> first | rfl | exact absurd (by decide) hb) (by decide)

theorem setSelector_quiet (i : SlotId) (x : Option Selector) (d : Device) : Quiet [.psu] d (setSelector i x d) :=
  quiet_one (fun b hb => by cases b <;> first | rfl | exact absurd (by decide) hb) (by decide)

theorem updLane_quiet (l : Lane) (f : ProtectionLane → ProtectionLane) (d : Device) : Quiet [.psu] d (updLane l f d) :=
  quiet_one (fun b hb => by cases b <;> first | rfl | exact absurd (by decide) hb) (by decide)

theorem setMeter_quiet (i : SlotId) (x : Option MeterRecord) (d : Device) : Quiet [.svm] d (setMeter i x d) :=
  quiet_one (fun b hb => by cases b <;> first | rfl | exact absurd (by decide) hb) (by decide)

theorem updMeter_quiet (i : SlotId) (f : MeterRecord → MeterRecord) (d : Device) : Quiet [.svm] d (updMeter i f d) :=
  quiet_one (fun b hb => by cases b <;> first | rfl | exact absurd (by decide) hb) (by decide)

theorem setMeters_quiet (d : Device) (f : SlotId → MeterRecord → MeterRecord) : Quiet [.svm] d (setMeters d f) :=
  quiet_one (fun b hb => by cases b <;> first | exact absurd (by decide) hb | simp [SameBlock]) (by decide)

theorem setBkc_quiet (k : Bkc) (d : Device) : Quiet [.bkc] d { d with bkc := k } :=
  quiet_one (fun b hb => by cases b <;> first | rfl | exact absurd (by decide) hb) (by decide)

theorem notifyAll_quiet (c : NoticeSet) (d : Device) : Quiet [.cpi] d (notifyAll c d) :=
  ⟨fun b hb => by cases b <;> first | rfl | exact absurd (by decide) hb, notifyAll_noticesOnly c d⟩

theorem advanceTo_quiet (n : Nat) (d : Device) : Quiet [.tb] d (advanceTo n d) :=
  quiet_one (fun b hb => by cases b <;> first | rfl | exact absurd (by decide) hb) (by decide)

theorem latch_quiet (r : Fin 49) (src : SourceSet) (d : Device) : Quiet [.fra] d (latch r src d) := updRecord_quiet r _ d

theorem setDeviceLevel_quiet (src : SourceSet) (p : Bool) (d : Device) : Quiet [.fra] d (setDeviceLevel src p d) :=
  updRecord_quiet deviceRecord _ d

/-! ### The fabric -/

theorem setDesired_quiet (n : FeedNode) (src : Option Lane) (d : Device) : Quiet [.fcu] d (setDesired n src d) :=
  updNode_quiet n _ d

theorem setClaims_quiet (p : HandoffPort) (live : Option LiveClaim) (test : Bool) (d : Device) :
    Quiet [.fcu] d (setClaims p live test d) := updPort_quiet p _ d

theorem placeLive_quiet (c : LiveClaim) (p : HandoffPort) (d : Device) : Quiet [.fcu] d (placeLive c p d) :=
  setClaims_quiet p _ _ d

theorem dropLive_quiet (h : Handle) (p : HandoffPort) (d : Device) : Quiet [.fcu] d (dropLive h p d) := by
  unfold dropLive
  split
  · split
    · exact setClaims_quiet p _ _ d
    · exact quiet_refl _ d
  · exact quiet_refl _ d

theorem preemptTest_quiet (p : HandoffPort) (d : Device) : Quiet [.fcu, .fra] d (preemptTest p d) := by
  unfold preemptTest
  split
  · exact quiet_trans (quiet_mono (by decide) (setClaims_quiet p _ _ d)) (quiet_mono (by decide) (latch_quiet _ _ _))
  · exact quiet_refl _ d

theorem takeNode_quiet (i : SlotId) (n : FeedNode) (d : Device) : Quiet [.fcu, .bkc, .svm] d (takeNode i n d) := by
  unfold takeNode
  split
  · exact quiet_refl _ d
  · refine quiet_trans ?_ (quiet_foldl (fun d p => quiet_mono (by decide) (placeLive_quiet _ p d)) _ _)
    exact quiet_trans (quiet_trans (quiet_mono (by decide) (updNode_quiet n _ d))
      (quiet_mono (by decide) (updBooking_quiet i _ _))) (quiet_mono (by decide) (updMeter_quiet i _ _))

theorem nodeFreed_quiet (n : FeedNode) (d : Device) : Quiet [.fcu, .bkc, .svm, .cpi] d (nodeFreed n d) := by
  unfold nodeFreed
  have h1 : Quiet [.fcu, .bkc, .svm, .cpi] d (updNode n (fun e => { e with state := .free }) d) :=
    quiet_mono (by decide) (updNode_quiet n _ d)
  dsimp only
  split
  · exact h1
  · refine quiet_trans h1 (quiet_trans ?_ (quiet_trans (quiet_mono (by decide) (takeNode_quiet _ n _))
      (quiet_mono (by decide) (notifyAll_quiet _ _))))
    exact quiet_mono (bs := [.bkc]) (by decide)
      (quiet_one (fun b hb => by cases b <;> first | rfl | exact absurd (by decide) hb) (by decide))

/-- The draining rule (R95) changes nodes, and the bookings, records and claims of those that are granted a node. -/
theorem freeNodes_quiet (d : Device) : Quiet [.fcu, .bkc, .svm, .cpi] d (freeNodes d) :=
  quiet_foldl (fun d n => by
    split
    · exact nodeFreed_quiet n d
    · exact quiet_refl _ d) _ _

theorem releaseNode_quiet (n : FeedNode) (d : Device) : Quiet [.fcu] d (releaseNode n d) := updNode_quiet n _ d

theorem sendOrder_quiet (k : OrderKind) (d : Device) : Quiet [.fcu] d (sendOrder k d) :=
  quiet_one (fun b hb => by cases b <;> first | rfl | exact absurd (by decide) hb) (by decide)

/-- The reconciler (R87) sends one new order, or does nothing. -/
theorem reconcile_cases (d : Device) :
    reconcile d = d ∨ ∃ k, chooseOrder d = some k ∧ d.cpi.phase = .operating ∧ d.fcu.inFlight = none
      ∧ reconcile d = sendOrder k d := by
  unfold reconcile
  split
  · next h =>
    split
    · next k hk => exact .inr ⟨k, hk, h.1, h.2, rfl⟩
    · exact .inl rfl
  · exact .inl rfl

theorem reconcile_quiet (d : Device) : Quiet [.fcu] d (reconcile d) := by
  obtain h | ⟨k, _, _, _, h⟩ := reconcile_cases d
  · rw [h]; exact quiet_refl _ d
  · rw [h]; exact sendOrder_quiet k d

@[simp] theorem reconcile_nodes (d : Device) : (reconcile d).fcu.nodes = d.fcu.nodes := by
  obtain h | ⟨k, _, _, _, h⟩ := reconcile_cases d <;> rw [h]; rfl

@[simp] theorem reconcile_ports (d : Device) : (reconcile d).fcu.ports = d.fcu.ports := by
  obtain h | ⟨k, _, _, _, h⟩ := reconcile_cases d <;> rw [h]; rfl

theorem reconcile_inFlight_of_some {d : Device} {o : InFlight} (h : d.fcu.inFlight = some o) : reconcile d = d := by
  unfold reconcile; rw [if_neg]; rw [h]; simp

theorem switchMarks_quiet (p : FeedNode → Bool) (d : Device) : Quiet [.svm] d (switchMarks p d) := setMeters_quiet d _

theorem confirmNode_quiet (n : FeedNode) (src : Source) (d : Device) : Quiet [.fcu, .svm] d (confirmNode n src d) := by
  unfold confirmNode
  split
  · exact quiet_refl _ d
  · exact quiet_trans (quiet_mono (by decide) (updNode_quiet n _ d)) (quiet_mono (by decide) (switchMarks_quiet _ _))

theorem confirmPort_quiet (p : HandoffPort) (a : Attachment) (d : Device) : Quiet [.fcu] d (confirmPort p a d) :=
  updPort_quiet p _ d

theorem confirmAll_quiet (src : Source) (a : Attachment) (d : Device) : Quiet [.fcu, .svm] d (confirmAll src a d) := by
  refine ⟨fun b hb => ?_, noticesOnly_of_cpi ?_⟩
  · cases b <;> first | exact absurd (by decide) hb | (unfold confirmAll switchMarks setMeters; rfl)
  · unfold confirmAll switchMarks setMeters; rfl

theorem clearMarks_quiet (d : Device) : Quiet [.fcu] d (clearMarks d) :=
  quiet_one (fun b hb => by cases b <;> first | rfl | exact absurd (by decide) hb) (by decide)

theorem drainFree_quiet (d : Device) : Quiet [.fcu] d (drainFree d) :=
  quiet_one (fun b hb => by cases b <;> first | rfl | exact absurd (by decide) hb) (by decide)

theorem dropOrder_quiet (d : Device) : Quiet [.fcu] d (dropOrder d) :=
  quiet_one (fun b hb => by cases b <;> first | rfl | exact absurd (by decide) hb) (by decide)

theorem confirmOrder_quiet (k : OrderKind) (d : Device) : Quiet [.fcu, .svm] d (confirmOrder k d) := by
  cases k
  · exact confirmAll_quiet _ _ d
  · exact quiet_trans (confirmNode_quiet _ _ d) (quiet_mono (by decide) (updNode_quiet _ _ _))
  · exact confirmNode_quiet _ _ d
  all_goals exact quiet_mono (by decide) (confirmPort_quiet _ _ d)

theorem refuseOrder_quiet (k : OrderKind) (reason : Byte) (d : Device) : Quiet [.fcu, .fra] d (refuseOrder k reason d) := by
  cases k
  · exact quiet_refl _ d
  · exact quiet_mono (by decide) (updNode_quiet _ _ d)
  · exact quiet_mono (by decide) (updNode_quiet _ _ d)
  all_goals
    exact quiet_trans (quiet_mono (by decide) (updPort_quiet _ _ d)) (quiet_mono (by decide) (latch_quiet _ _ _))

theorem loseOrder_quiet (k : OrderKind) (d : Device) : Quiet [.fcu, .svm] d (loseOrder k d) := by
  cases k
  · exact quiet_refl _ d
  · exact quiet_trans (confirmNode_quiet _ _ d) (quiet_mono (by decide) (updNode_quiet _ _ _))
  · exact quiet_trans (confirmNode_quiet _ _ d) (quiet_mono (by decide) (updNode_quiet _ _ _))
  all_goals
    exact quiet_mono (bs := [.fcu]) (by decide)
      (quiet_trans (quiet_trans (confirmPort_quiet _ _ d) (updPort_quiet _ _ _)) (drainFree_quiet _))

/-! ### Protection switching -/

theorem refreshDenied_quiet (d : Device) : Quiet [.fra] d (refreshDenied d) := setDeviceLevel_quiet _ _ d

theorem joinWaiting_quiet (l : Lane) (i : SlotId) (d : Device) : Quiet [.psu, .fra] d (joinWaiting l i d) :=
  quiet_trans (quiet_mono (by decide) (updLane_quiet l _ d)) (quiet_mono (by decide) (refreshDenied_quiet _))

theorem leaveWaiting_quiet (l : Lane) (h : Handle) (d : Device) : Quiet [.psu, .fra] d (leaveWaiting l h d) :=
  quiet_trans (quiet_mono (by decide) (updLane_quiet l _ d)) (quiet_mono (by decide) (refreshDenied_quiet _))

theorem reselect_quiet (i : SlotId) (l : Lane) (d : Device) : Quiet [.fcu, .cpi] d (reselect i l d) := by
  unfold reselect
  split
  · exact quiet_trans (quiet_mono (by decide) (setDesired_quiet _ _ d)) (quiet_mono (by decide) (notifyAll_quiet _ _))
  · exact quiet_mono (by decide) (notifyAll_quiet _ d)

theorem followLane_quiet (i : SlotId) (old new : Selector) (d : Device) : Quiet [.psu, .fra] d (followLane i old new d) := by
  unfold followLane
  split
  · exact quiet_refl _ d
  · next p _ =>
    dsimp only
    have h1 : Quiet [.psu, .fra] d
        (if holdsLane new.state && !holdsLane old.state then updLane p (fun x => { x with holder := some new.handle }) d
          else if holdsLane old.state && !holdsLane new.state then updLane p (fun x => { x with holder := none }) d
          else d) := by
      split
      · exact quiet_mono (by decide) (updLane_quiet p _ d)
      · split
        · exact quiet_mono (by decide) (updLane_quiet p _ d)
        · exact quiet_refl _ d
    split
    · exact quiet_trans h1 (joinWaiting_quiet p i _)
    · split
      · exact quiet_trans h1 (leaveWaiting_quiet p _ _)
      · exact h1

/-- What a change of one selector can change: the PSU, a node's desired source, SHARED_PROTECTION_DENIED, the notices. -/
theorem moveSelector_quiet (i : SlotId) (new : Selector) (d : Device) :
    Quiet [.psu, .fcu, .fra, .cpi] d (moveSelector i new d) := by
  unfold moveSelector
  split
  · exact quiet_refl _ d
  · next old _ =>
    dsimp only
    have h1 : Quiet [.psu, .fcu, .fra, .cpi] d (followLane i old new (setSelector i (some new) d)) :=
      quiet_trans (quiet_mono (by decide) (setSelector_quiet i _ d)) (quiet_mono (by decide) (followLane_quiet i old new _))
    have h2 : ∀ d', Quiet [.psu, .fcu, .fra, .cpi] d d' → Quiet [.psu, .fcu, .fra, .cpi] d
        (if selectedLane new ≠ selectedLane old then reselect i (selectedLane new) d' else d') := fun d' h => by
      split
      · exact quiet_trans h (quiet_mono (by decide) (reselect_quiet i _ d'))
      · exact h
    split
    · exact quiet_trans (h2 _ h1) (quiet_mono (by decide) (notifyAll_quiet _ _))
    · exact h2 _ h1

theorem arbitrate_quiet (l : Lane) (d : Device) : Quiet [.psu, .fcu, .fra, .cpi] d (arbitrate l d) := by
  unfold arbitrate
  split
  · split
    · exact quiet_refl _ d
    · split
      · exact quiet_refl _ d
      · exact moveSelector_quiet _ _ d
  · exact quiet_refl _ d

theorem changeSelector_quiet (i : SlotId) (new : Selector) (d : Device) :
    Quiet [.psu, .fcu, .fra, .cpi] d (changeSelector i new d) := by
  unfold changeSelector
  split
  · exact quiet_refl _ d
  · dsimp only
    split
    · split
      · exact quiet_trans (moveSelector_quiet i new d) (arbitrate_quiet _ _)
      · exact moveSelector_quiet i new d
    · exact moveSelector_quiet i new d

theorem holdOffEnds_quiet (i : SlotId) (d : Device) : Quiet [.psu, .fcu, .fra, .cpi] d (holdOffEnds i d) := by
  unfold holdOffEnds
  repeat' split
  all_goals first | with_reducible exact quiet_refl _ d | with_reducible exact changeSelector_quiet _ _ d

theorem startHoldOff_quiet (i : SlotId) (d : Device) : Quiet [.psu, .fcu, .fra, .cpi] d (startHoldOff i d) := by
  unfold startHoldOff
  split
  · exact quiet_refl _ d
  · dsimp only
    split
    · exact quiet_trans (changeSelector_quiet i _ d) (holdOffEnds_quiet i _)
    · exact changeSelector_quiet i _ d

theorem returnToWorking_quiet (i : SlotId) (d : Device) : Quiet [.psu, .fcu, .fra, .cpi] d (returnToWorking i d) := by
  unfold returnToWorking
  split
  · exact quiet_refl _ d
  · exact changeSelector_quiet i _ d

theorem startReturn_quiet (i : SlotId) (d : Device) : Quiet [.psu, .fcu, .fra, .cpi] d (startReturn i d) := by
  unfold startReturn
  split
  · exact quiet_refl _ d
  · dsimp only
    split
    · exact quiet_trans (changeSelector_quiet i _ d) (returnToWorking_quiet i _)
    · exact changeSelector_quiet i _ d

theorem waitOrStay_quiet (i : SlotId) (d : Device) : Quiet [.psu, .fcu, .fra, .cpi] d (waitOrStay i d) := by
  unfold waitOrStay
  repeat' split
  all_goals first | with_reducible exact quiet_refl _ d | with_reducible exact changeSelector_quiet _ _ d

theorem workingFailure_quiet (i : SlotId) (d : Device) : Quiet [.psu, .fcu, .fra, .cpi] d (workingFailure i d) := by
  unfold workingFailure
  repeat' split
  all_goals first | with_reducible exact quiet_refl _ d | with_reducible exact changeSelector_quiet _ _ d | with_reducible exact startHoldOff_quiet i d

theorem workingRecovery_quiet (i : SlotId) (d : Device) : Quiet [.psu, .fcu, .fra, .cpi] d (workingRecovery i d) := by
  unfold workingRecovery
  dsimp only
  repeat' split
  all_goals first
    | with_reducible exact quiet_refl _ d
    | with_reducible exact changeSelector_quiet _ _ d
    | with_reducible exact waitOrStay_quiet i d
    | exact quiet_trans (changeSelector_quiet i _ d) (returnToWorking_quiet i _)
    | exact quiet_trans (changeSelector_quiet i _ d) (startReturn_quiet i _)

theorem protectionTaken_quiet (e : ProtectionEvent) (i : SlotId) (d : Device) :
    Quiet [.psu, .fcu, .fra, .cpi] d (protectionTaken e i d) := by
  unfold protectionTaken
  repeat' split
  all_goals first
    | with_reducible exact quiet_refl _ d
    | with_reducible exact changeSelector_quiet _ _ d
    | with_reducible exact waitOrStay_quiet i d
    | with_reducible exact returnToWorking_quiet i d
    | with_reducible exact startReturn_quiet i d

theorem bothFailedRecovery_quiet (p : Lane) (i : SlotId) (d : Device) :
    Quiet [.psu, .fcu, .fra, .cpi] d (bothFailedRecovery p i d) := by
  unfold bothFailedRecovery
  split
  · exact quiet_refl _ d
  · dsimp only
    split
    · split
      · exact quiet_trans (changeSelector_quiet i _ d) (startHoldOff_quiet i _)
      · exact changeSelector_quiet i _ d
    · exact quiet_refl _ d

theorem workingStep_quiet (o n : Vector Bool 128) (d : Device) (i : SlotId) :
    Quiet [.psu, .fcu, .fra, .cpi] d (workingStep o n d i) := by
  unfold workingStep
  repeat' split
  all_goals first | with_reducible exact quiet_refl _ d | with_reducible exact workingFailure_quiet i d | with_reducible exact workingRecovery_quiet i d

theorem protectionStep_quiet (e : ProtectionEvent) (old : List Waiter) (l : Lane) (d : Device) :
    Quiet [.psu, .fcu, .fra, .cpi] d (protectionStep e old l d) := by
  unfold protectionStep
  dsimp only
  have h1 : Quiet [.psu, .fcu, .fra, .cpi] d
      (match (lane d l).holder with
        | some h => protectionTaken e h.slot d
        | none => d) := by
    split
    · exact protectionTaken_quiet e _ d
    · exact quiet_refl _ d
  split
  · exact quiet_trans
      (quiet_trans (quiet_trans h1 (arbitrate_quiet l _)) (quiet_foldl (fun d i => bothFailedRecovery_quiet l i d) _ _))
      (quiet_mono (by decide) (updLane_quiet l _ _))
  · exact quiet_trans h1 (arbitrate_quiet l _)
  · exact quiet_trans h1 (arbitrate_quiet l _)

/-- What one event of the FRA (R121) can change. -/
theorem laneEvents_quiet (f : Vector Bool 128) (q : Vector Bool 16) (d : Device) :
    Quiet [.psu, .fcu, .fra, .cpi] d (laneEvents f q d) := by
  unfold laneEvents
  dsimp only
  refine quiet_trans (quiet_trans ?_ (quiet_foldl (fun d i => workingStep_quiet _ _ d i) _ _)) (quiet_foldl (fun d l => ?_) _ _)
  · exact quiet_mono (bs := [.psu]) (by decide)
      (quiet_one (fun b hb => by cases b <;> first | rfl | exact absurd (by decide) hb) (by decide))
  · split
    · exact protectionStep_quiet _ _ l d
    · exact quiet_refl _ d

theorem createSelector_quiet (i : SlotId) (d : Device) : Quiet [.psu, .fcu, .fra, .cpi] d (createSelector i d) := by
  unfold createSelector
  split
  · exact quiet_refl _ d
  · dsimp only
    split
    · exact quiet_mono (by decide) (setSelector_quiet i _ d)
    · split
      · exact quiet_trans (quiet_mono (by decide) (setSelector_quiet i _ d)) (quiet_mono (by decide) (updLane_quiet _ _ _))
      · split
        · exact quiet_trans (quiet_mono (by decide) (setSelector_quiet i _ d)) (startHoldOff_quiet i _)
        · exact quiet_mono (by decide) (setSelector_quiet i _ d)

theorem endSelector_quiet (i : SlotId) (d : Device) : Quiet [.psu, .fcu, .fra, .cpi] d (endSelector i d) := by
  unfold endSelector
  split
  · exact quiet_refl _ d
  · dsimp only
    have h1 : Quiet [.psu, .fcu, .fra, .cpi] d (setSelector i none d) := quiet_mono (by decide) (setSelector_quiet i _ d)
    split
    · exact h1
    · split
      · exact quiet_trans h1 (quiet_mono (by decide) (leaveWaiting_quiet _ _ _))
      · split
        · exact quiet_trans h1 (quiet_trans (quiet_mono (by decide) (updLane_quiet _ _ _)) (arbitrate_quiet _ _))
        · exact h1

/-! ### Fault records -/

theorem quarantine_quiet (t : Trunk) (d : Device) : Quiet [.fra] d (quarantine t d) := by
  unfold quarantine
  split
  · exact quiet_refl _ d
  · exact quiet_trans (updTrunkFault_quiet t _ d) (updRecord_quiet _ _ _)

theorem handTrunk_quiet (d : Device) (t : Trunk) : Quiet [.fra] d (handTrunk d t) := by
  unfold handTrunk
  dsimp only
  split
  · exact quiet_trans (quiet_trans (updTrunkFault_quiet t _ d) (updRecord_quiet _ _ _)) (quarantine_quiet t _)
  · exact quiet_trans (updTrunkFault_quiet t _ d) (updRecord_quiet _ _ _)

theorem handLanes_quiet (d : Device) : Quiet [.psu, .fcu, .fra, .cpi] d (handLanes d) := by
  unfold handLanes
  dsimp only
  split
  · exact quiet_refl _ d
  · exact quiet_trans (laneEvents_quiet _ _ d) (quiet_mono (by decide) (reconcile_quiet _))

/-- What the changes of one event on some trunks can change (R152). -/
theorem handTrunks_quiet (ts : List Trunk) (d : Device) : Quiet [.psu, .fcu, .fra, .cpi] d (handTrunks ts d) :=
  quiet_trans (quiet_mono (by decide) (quiet_foldl (bs := [.fra]) (fun d t => handTrunk_quiet d t) ts d)) (handLanes_quiet _)

/-! ### Metering and the billing queue -/

theorem freeSlot_quiet (i : SlotId) (d : Device) : Quiet [.bkc, .svm] d (freeSlot i d) :=
  quiet_trans (quiet_mono (by decide) (updSlot_quiet i _ d)) (quiet_mono (by decide) (setMeter_quiet i _ _))

theorem placeBooking_quiet (i : SlotId) (b : Booking) (d : Device) :
    Quiet [.bq, .bkc, .svm, .fra, .cpi] d (placeBooking i b d) := by
  unfold placeBooking
  dsimp only
  refine quiet_trans (quiet_trans (quiet_trans ?_ (quiet_mono (by decide) (freeSlot_quiet i _)))
    (quiet_mono (by decide) (notifyAll_quiet _ _))) (quiet_mono (by decide) (setDeviceLevel_quiet _ _ _))
  exact ⟨fun b hb => by cases b <;> first | rfl | exact absurd (by decide) hb, noticesOnly_of_cpi rfl⟩

theorem placeList_quiet (xs : List SlotId) (d : Device) : Quiet [.bq, .bkc, .svm, .fra, .cpi] d (placeList xs d) := by
  induction xs generalizing d with
  | nil => exact quiet_refl _ d
  | cons i rest ih =>
    unfold placeList
    split
    · exact quiet_refl _ d
    · split
      · exact quiet_trans (placeBooking_quiet i _ d) (ih _)
      · exact quiet_refl _ d

theorem joinUnbilled_quiet (i : SlotId) (cs : List Charge) (d : Device) :
    Quiet [.bq, .bkc, .svm, .fra, .cpi] d (joinUnbilled i cs d) := by
  unfold joinUnbilled
  dsimp only
  have h1 : ∀ d2 : Device, d2 = { updBooking i (fun b => { b with state := .unbilled, charges := cs }) d with
      bkc := { (updBooking i (fun b => { b with state := .unbilled, charges := cs }) d).bkc with
        unbilled := (updBooking i (fun b => { b with state := .unbilled, charges := cs }) d).bkc.unbilled ++ [i] } } →
      Quiet [.bq, .bkc, .svm, .fra, .cpi] d d2 := fun d2 e => by
    subst e
    exact ⟨fun b hb => by cases b <;> first | rfl | exact absurd (by decide) hb, noticesOnly_of_cpi rfl⟩
  split
  · exact quiet_trans (h1 _ rfl) (placeList_quiet _ _)
  · exact h1 _ rfl

theorem settle_quiet (i : SlotId) (d : Device) : Quiet [.bq, .bkc, .svm, .fra, .cpi] d (settle i d) := by
  unfold settle
  split
  · dsimp only
    split
    · exact quiet_trans (quiet_mono (by decide) (setMeter_quiet i _ d)) (joinUnbilled_quiet i _ _)
    · exact quiet_refl _ d
  · exact quiet_refl _ d

/-- What the application of ready snapshots, with the settlements it completes, can change (R165, R170). -/
theorem applyAndSettle_quiet (d : Device) : Quiet [.bq, .bkc, .svm, .fra, .cpi] d (applyAndSettle d) :=
  quiet_trans (quiet_mono (by decide) (setMeters_quiet d _)) (quiet_foldl (fun d i => settle_quiet i d) _ _)

theorem handSecond_quiet (t : Trunk) (c : ClosedSecond) (d : Device) : Quiet [.svm] d (handSecond t c d) :=
  setMeters_quiet d _

/-! ### The lifecycle -/

theorem release_quiet (i : SlotId) (n : Nat) (b : Booking) (d : Device) :
    Quiet [.bkc, .psu, .fcu, .svm, .fra, .cpi] d (release i n b d) := by
  unfold release
  dsimp only
  refine quiet_trans (quiet_trans (quiet_trans ?_ (quiet_foldl (fun d p => quiet_mono (by decide) (dropLive_quiet _ p d)) _ _))
    (quiet_mono (by decide) (endSelector_quiet i _))) (quiet_mono (by decide) (freeNodes_quiet _))
  split
  · exact quiet_trans (quiet_trans (quiet_mono (by decide) (updBooking_quiet i _ d))
      (quiet_mono (by decide) (setBkc_quiet _ _))) (quiet_mono (by decide) (releaseNode_quiet _ _))
  · exact quiet_trans (quiet_mono (by decide) (updBooking_quiet i _ d)) (quiet_mono (by decide) (setBkc_quiet _ _))

/-- What a close can change (R66, R67). -/
theorem close_quiet (i : SlotId) (n : Nat) (b : Booking) (d : Device) :
    Quiet [.bkc, .psu, .fcu, .svm, .fra, .bq, .cpi] d (close i n b d) := by
  unfold close
  dsimp only
  exact quiet_trans (quiet_trans (quiet_trans (quiet_mono (by decide) (updBooking_quiet i _ d))
    (quiet_mono (by decide) (release_quiet i n b _))) (quiet_mono (by decide) (notifyAll_quiet _ _)))
    (quiet_mono (by decide) (settle_quiet i _))

/-- What a late cancel can change (R73). -/
theorem cancelLate_quiet (i : SlotId) (b : Booking) (d : Device) :
    Quiet [.bkc, .psu, .fcu, .svm, .fra, .bq, .cpi] d (cancelLate i b d) := by
  unfold cancelLate
  dsimp only
  exact quiet_trans (quiet_trans (quiet_trans (quiet_trans (quiet_mono (by decide) (release_quiet i _ b d))
    (quiet_mono (by decide) (updBooking_quiet i _ _))) (quiet_mono (by decide) (updMeter_quiet i _ _)))
    (quiet_mono (by decide) (notifyAll_quiet _ _))) (quiet_mono (by decide) (joinUnbilled_quiet i _ _))

/-- What arming can change (R58). -/
theorem arm_quiet (t : Word) (i : SlotId) (b : Booking) (d : Device) :
    Quiet [.bkc, .psu, .fcu, .svm, .fra, .cpi] d (arm t i b d) := by
  unfold arm
  dsimp only
  refine quiet_trans ?_ (quiet_mono (by decide) (notifyAll_quiet _ _))
  have h1 : Quiet [.bkc, .psu, .fcu, .svm, .fra, .cpi] d (b.recipients.foldl (fun d p => preemptTest p d)
      (setMeter i (some (freshRecord b t)) (createSelector i (updBooking i (fun b => { b with state := .armed }) d)))) :=
    quiet_trans (quiet_trans (quiet_trans (quiet_mono (by decide) (updBooking_quiet i _ d))
      (quiet_mono (by decide) (createSelector_quiet i _))) (quiet_mono (by decide) (setMeter_quiet i _ _)))
      (quiet_foldl (fun d p => quiet_mono (by decide) (preemptTest_quiet p d)) _ _)
  split
  · exact quiet_trans h1 (quiet_mono (by decide) (takeNode_quiet i _ _))
  · refine quiet_trans h1 ?_
    exact ⟨fun b hb => by cases b <;> first | rfl | exact absurd (by decide) hb, noticesOnly_of_cpi rfl⟩

theorem timedEvent_quiet (t : Word) (i : SlotId) (b : Booking) (d : Device) :
    Quiet [.bkc, .psu, .fcu, .svm, .fra, .bq, .cpi] d (timedEvent t i b d) := by
  unfold timedEvent
  repeat' split
  all_goals first
    | with_reducible exact quiet_refl _ d
    | with_reducible exact close_quiet i _ b d
    | with_reducible exact quiet_mono (bs := [.bkc, .psu, .fcu, .svm, .fra, .cpi]) (by decide) (arm_quiet t i b d)
    | exact quiet_trans (quiet_mono (by decide) (updBooking_quiet i _ d)) (quiet_mono (by decide) (notifyAll_quiet _ _))

theorem overrunWarning_quiet (t : Word) (i : SlotId) (d : Device) : Quiet [.bkc, .cpi] d (overrunWarning t i d) := by
  unfold overrunWarning
  repeat' split
  all_goals first
    | with_reducible exact quiet_refl _ d
    | exact quiet_trans (quiet_mono (by decide) (updBooking_quiet i _ d)) (quiet_mono (by decide) (notifyAll_quiet _ _))

/-- What the BKC's boundary can change (R57). -/
theorem bkcBoundary_quiet (t : Word) (d : Device) :
    Quiet [.bkc, .psu, .fcu, .svm, .fra, .bq, .cpi] d (bkcBoundary t d) := by
  refine quiet_trans (quiet_foldl (fun d i => ?_) _ d) (quiet_mono (by decide) (reconcile_quiet _))
  unfold slotBoundary
  split
  · exact quiet_refl _ d
  · exact quiet_trans (timedEvent_quiet t i _ d) (quiet_mono (by decide) (overrunWarning_quiet t i _))

end Sys2Proof.Machine
end

