-- ==== Sys2Proof/Laws/Choices.lean ====
section
/-! SUPPORT. What the shared operations that choose can do, each said once: the reconciler (R88), a joining of a waiting list
(R118), a change of a selector (R101, R117), the arbiter (R119), the counts of admission (R44, R47), the draining rule beside an
UNKNOWN port (R92, R95), settlement (R170), the late cancel (R171) and placement (R182, R184). -/

namespace Sys2Proof.Machine

/-! ### The reconciler (R87, R88) -/

/-- The first entry of a table that answers, and that none before it does. -/
theorem findSome_finRange {n : Nat} {α : Type} {f : Fin n → Option α} {a : α} (h : (List.finRange n).findSome? f = some a) :
    ∃ i, f i = some a ∧ ∀ j, j < i → f j = none := by
  obtain ⟨l₁, i, l₂, hl, hi, hn⟩ := List.findSome?_eq_some_iff.mp h
  refine ⟨i, hi, fun j hj => hn j ?_⟩
  have hs : (List.finRange n).Pairwise (· < ·) := List.pairwise_lt_finRange n
  have hm : j ∈ List.finRange n := List.mem_finRange j
  rw [hl] at hs hm
  rw [List.pairwise_append] at hs
  obtain ⟨_, h2, _⟩ := hs
  rw [List.pairwise_cons] at h2
  rw [List.mem_append, List.mem_cons] at hm
  rcases hm with h | rfl | h
  · exact h
  · exact absurd hj (Nat.lt_irrefl _)
  · exact absurd (h2.1 j h) (by omega)

theorem findSome_finRange_none {n : Nat} {α : Type} {f : Fin n → Option α} (h : (List.finRange n).findSome? f = none)
    (i : Fin n) : f i = none := List.findSome?_eq_none_iff.mp h i (List.mem_finRange i)

theorem desiredAttachment_ne_unknown (e : PortEntry) : desiredAttachment e ≠ .unknown := by
  unfold desiredAttachment; split
  · simp
  · split <;> simp

/-- What a port asks for, by class. -/
theorem port_asks {d : Device} {p : HandoffPort} {cls : Nat} {k : OrderKind} (hs : (port d p).stuck = false)
    (hd : (port d p).confirmed ≠ desiredAttachment (port d p))
    (h : (cls = 1 ∧ desiredAttachment (port d p) = .park ∧ k = .portPark p)
        ∨ (∃ n, cls = 4 ∧ desiredAttachment (port d p) = .node n ∧ k = .portJoin p n)
        ∨ (cls = 5 ∧ desiredAttachment (port d p) = .test ∧ k = .portTest p)) :
    (cls = 1 ∧ parkOrder d p = some k) ∨ (cls = 4 ∧ joinOrder d p = some k) ∨ (cls = 5 ∧ testOrder d p = some k) := by
  have hdf : portDiffers (port d p) = true := by simp [portDiffers, hs, hd]
  rcases h with ⟨rfl, h, rfl⟩ | ⟨n, rfl, h, rfl⟩ | ⟨rfl, h, rfl⟩
  · exact .inl ⟨rfl, by simp [parkOrder, hdf, h]⟩
  · exact .inr (.inl ⟨rfl, by simp [joinOrder, hdf, h]⟩)
  · exact .inr (.inr ⟨rfl, by simp [testOrder, hdf, h]⟩)

theorem node_asks {d : Device} {n : FeedNode} {cls : Nat} {k : OrderKind} (hs : (node d n).stuck = false)
    (hd : (node d n).confirmed ≠ desiredSource (node d n))
    (h : (∃ l, (node d n).state = .owned ∧ cls = (if (node d n).established then 2 else 3) ∧ (node d n).desired = some l
            ∧ k = .nodeSelect n l)
        ∨ (cls = 3 ∧ (node d n).state = .draining ∧ k = .nodeRelease n)) :
    (cls = 2 ∧ switchOrder d n = some k) ∨ (cls = 3 ∧ setUpOrder d n = some k) := by
  have hdf : nodeDiffers (node d n) = true := by simp [nodeDiffers, hs, hd]
  rcases h with ⟨l, ho, hc, hl, rfl⟩ | ⟨rfl, ho, rfl⟩
  · split at hc
    · next he => exact .inl ⟨hc, by simp [switchOrder, hdf, ho, he, hl]⟩
    · next he => exact .inr ⟨hc, by simp [setUpOrder, hdf, ho, he, hl]⟩
  · exact .inr ⟨rfl, by simp [setUpOrder, hdf, ho]⟩

theorem asksFor_cases {d : Device} {cls number : Nat} {k : OrderKind} (h : AsksFor d cls number k) :
    (∃ p : HandoffPort, number = p.val ∧ ((cls = 1 ∧ parkOrder d p = some k) ∨ (cls = 4 ∧ joinOrder d p = some k)
        ∨ (cls = 5 ∧ testOrder d p = some k)))
      ∨ ∃ n : FeedNode, number = n.val ∧ ((cls = 2 ∧ switchOrder d n = some k) ∨ (cls = 3 ∧ setUpOrder d n = some k)) := by
  rcases h with ⟨p, hp, hs, hd, h⟩ | ⟨n, hn, hs, hd, h⟩
  · exact .inl ⟨p, hp, port_asks hs hd h⟩
  · exact .inr ⟨n, hn, node_asks hs hd h⟩

theorem park_asks {d : Device} {p : HandoffPort} {k : OrderKind} (h : parkOrder d p = some k) : AsksFor d 1 p.val k := by
  simp [parkOrder, portDiffers] at h
  exact .inl ⟨p, rfl, h.1.1.1, h.1.1.2, .inl ⟨rfl, h.1.2, h.2.symm⟩⟩

theorem test_asks {d : Device} {p : HandoffPort} {k : OrderKind} (h : testOrder d p = some k) : AsksFor d 5 p.val k := by
  simp [testOrder, portDiffers] at h
  exact .inl ⟨p, rfl, h.1.1.1, h.1.1.2, .inr (.inr ⟨rfl, h.1.2, h.2.symm⟩)⟩

theorem join_asks {d : Device} {p : HandoffPort} {k : OrderKind} (h : joinOrder d p = some k) : AsksFor d 4 p.val k := by
  simp only [joinOrder] at h
  split at h
  · next hd =>
    simp [portDiffers] at hd
    split at h <;> cases h
    next n hn => exact .inl ⟨p, rfl, hd.1, hd.2, .inr (.inl ⟨n, rfl, hn, rfl⟩)⟩
  · cases h

theorem switch_asks {d : Device} {n : FeedNode} {k : OrderKind} (h : switchOrder d n = some k) : AsksFor d 2 n.val k := by
  simp only [switchOrder] at h
  split at h
  · next hd =>
    simp [nodeDiffers] at hd
    obtain ⟨l, hl, rfl⟩ := Option.map_eq_some_iff.mp h
    exact .inr ⟨n, rfl, hd.1.1.1, hd.1.1.2, .inl ⟨l, hd.1.2, by simp [hd.2], hl, rfl⟩⟩
  · cases h

theorem setUp_asks {d : Device} {n : FeedNode} {k : OrderKind} (h : setUpOrder d n = some k) : AsksFor d 3 n.val k := by
  simp only [setUpOrder] at h
  split at h
  · next hd =>
    simp [nodeDiffers] at hd
    split at h
    · next ho =>
      split at h
      · cases h
      · next he =>
        obtain ⟨l, hl, rfl⟩ := Option.map_eq_some_iff.mp h
        exact .inr ⟨n, rfl, hd.1, hd.2, .inl ⟨l, ho, by simp [he], hl, rfl⟩⟩
    · next ho => cases h; exact .inr ⟨n, rfl, hd.1, hd.2, .inr ⟨rfl, ho, rfl⟩⟩
    · cases h
  · cases h

/-- The reconciler's choice is the order of the lowest entry of the first class that holds a differing one (R88). -/
theorem chooseOrder_chosen (d : Device) : ChosenOrder d (chooseOrder d) := by
  have key (cls number : Nat) (k : OrderKind) (ha : AsksFor d cls number k)
      (hmin : ∀ c n' k', AsksFor d c n' k' → c < cls ∨ (c = cls ∧ n' < number) → False) : ChosenOrder d (some k) := by
    refine ⟨nofun, fun k' hk => ?_⟩
    cases hk
    refine ⟨cls, number, ha, fun c n' k' h' => ?_⟩
    have : ¬(c < cls ∨ (c = cls ∧ n' < number)) := hmin c n' k' h'
    omega
  unfold chooseOrder
  split
  · next k hk =>
    obtain ⟨p, hp, hlt⟩ := findSome_finRange hk
    refine key 1 p.val k (park_asks hp) fun c n' k' h' hc => ?_
    rcases asksFor_cases h' with ⟨q, rfl, h | h | h⟩ | ⟨q, rfl, h | h⟩ <;> obtain ⟨rfl, h⟩ := h <;> try omega
    rw [hlt q (by omega)] at h; cases h
  · next h1 =>
    have h1 := findSome_finRange_none h1
    split
    · next k hk =>
      obtain ⟨p, hp, hlt⟩ := findSome_finRange hk
      refine key 2 p.val k (switch_asks hp) fun c n' k' h' hc => ?_
      rcases asksFor_cases h' with ⟨q, rfl, h | h | h⟩ | ⟨q, rfl, h | h⟩ <;> obtain ⟨rfl, h⟩ := h <;> try omega
      · rw [h1 q] at h; cases h
      · rw [hlt q (by omega)] at h; cases h
    · next h2 =>
      have h2 := findSome_finRange_none h2
      split
      · next k hk =>
        obtain ⟨p, hp, hlt⟩ := findSome_finRange hk
        refine key 3 p.val k (setUp_asks hp) fun c n' k' h' hc => ?_
        rcases asksFor_cases h' with ⟨q, rfl, h | h | h⟩ | ⟨q, rfl, h | h⟩ <;> obtain ⟨rfl, h⟩ := h <;> try omega
        · rw [h1 q] at h; cases h
        · rw [h2 q] at h; cases h
        · rw [hlt q (by omega)] at h; cases h
      · next h3 =>
        have h3 := findSome_finRange_none h3
        split
        · next k hk =>
          obtain ⟨p, hp, hlt⟩ := findSome_finRange hk
          refine key 4 p.val k (join_asks hp) fun c n' k' h' hc => ?_
          rcases asksFor_cases h' with ⟨q, rfl, h | h | h⟩ | ⟨q, rfl, h | h⟩ <;> obtain ⟨rfl, h⟩ := h <;> try omega
          · rw [h1 q] at h; cases h
          · rw [hlt q (by omega)] at h; cases h
          · rw [h2 q] at h; cases h
          · rw [h3 q] at h; cases h
        · next h4 =>
          have h4 := findSome_finRange_none h4
          cases hk : (List.finRange 32).findSome? (testOrder d) with
          | some k =>
            obtain ⟨p, hp, hlt⟩ := findSome_finRange hk
            refine key 5 p.val k (test_asks hp) fun c n' k' h' hc => ?_
            rcases asksFor_cases h' with ⟨q, rfl, h | h | h⟩ | ⟨q, rfl, h | h⟩ <;> obtain ⟨rfl, h⟩ := h <;> try omega
            · rw [h1 q] at h; cases h
            · rw [h4 q] at h; cases h
            · rw [hlt q (by omega)] at h; cases h
            · rw [h2 q] at h; cases h
            · rw [h3 q] at h; cases h
          | none =>
            have h5 := findSome_finRange_none hk
            refine ⟨fun _ c n' k' h' => ?_, fun k hk => by cases hk⟩
            rcases asksFor_cases h' with ⟨q, rfl, h | h | h⟩ | ⟨q, rfl, h | h⟩ <;> obtain ⟨rfl, h⟩ := h
            · rw [h1 q] at h; cases h
            · rw [h4 q] at h; cases h
            · rw [h5 q] at h; cases h
            · rw [h2 q] at h; cases h
            · rw [h3 q] at h; cases h

/-! ### The waiting list (R118) -/

/-- A joining booking stands behind every booking of its own or higher priority, and ahead of the first of lower priority;
in a list that is in order, ahead of all of lower priority. -/
theorem insertWaiter_split (w : Waiter) (ws : List Waiter) :
    ∃ pre post, ws = pre ++ post ∧ insertWaiter w ws = pre ++ w :: post ∧ (∀ v ∈ pre, w.priority ≤ v.priority)
      ∧ (ws.Pairwise (fun u v => v.priority ≤ u.priority) → ∀ v ∈ post, v.priority < w.priority) := by
  induction ws with
  | nil => exact ⟨[], [], rfl, rfl, nofun, nofun⟩
  | cons x rest ih =>
    unfold insertWaiter
    split
    · next h =>
      refine ⟨[], x :: rest, rfl, rfl, nofun, fun hp v hv => ?_⟩
      rw [List.pairwise_cons] at hp
      rcases List.mem_cons.mp hv with rfl | hv
      · exact h
      · have := hp.1 v hv; omega
    · next h =>
      obtain ⟨pre, post, h1, h2, h3, h4⟩ := ih
      refine ⟨x :: pre, post, by rw [h1]; rfl, by rw [h2]; rfl, fun v hv => ?_, fun hp => h4 (List.pairwise_cons.mp hp).2⟩
      rcases List.mem_cons.mp hv with rfl | hv
      · omega
      · exact h3 v hv

/-- A joining booking is added to the list, and none leaves it (R118). -/
theorem mem_insertWaiter (v w : Waiter) (ws : List Waiter) : v ∈ insertWaiter w ws ↔ v = w ∨ v ∈ ws := by
  obtain ⟨pre, post, rfl, h, -⟩ := insertWaiter_split w ws
  simp [h, or_left_comm]

/-- A list in order of priority stays so when a booking joins it (R118). -/
theorem insertWaiter_ordered {w : Waiter} {ws : List Waiter} (h : ws.Pairwise fun u v => v.priority ≤ u.priority) :
    (insertWaiter w ws).Pairwise fun u v => v.priority ≤ u.priority := by
  obtain ⟨pre, post, rfl, e, hp, hq⟩ := insertWaiter_split w ws
  have hq := hq h
  rw [e]
  simp only [List.pairwise_append, List.pairwise_cons, List.mem_cons] at h ⊢
  refine ⟨h.1, ⟨fun v hv => Fin.le_of_lt (hq v hv), h.2.1⟩, fun u hu v hv => ?_⟩
  rcases hv with rfl | hv
  · exact hp u hu
  · exact h.2.2 u hu v hv

theorem foldl_insertWaiter {js ws : List Waiter} (h : ws.Pairwise fun u v => v.priority ≤ u.priority) :
    (js.foldl (fun ws w => insertWaiter w ws) ws).Pairwise (fun u v => v.priority ≤ u.priority)
      ∧ ∀ v, v ∈ js.foldl (fun ws w => insertWaiter w ws) ws ↔ v ∈ js ∨ v ∈ ws := by
  induction js generalizing ws with
  | nil => exact ⟨h, fun v => by simp⟩
  | cons j rest ih =>
    obtain ⟨ho, hm⟩ := ih (insertWaiter_ordered (w := j) h)
    exact ⟨ho, fun v => by simp [hm, mem_insertWaiter, or_left_comm, or_assoc]⟩

/-- The slot order of the joiners of an event keeps the list: those who stand on it stay on it, in order of priority (R118). -/
theorem inSlotOrder_keeps {old now : List Waiter} (h : now.Pairwise fun u v => v.priority ≤ u.priority) :
    (inSlotOrder old now).Pairwise (fun u v => v.priority ≤ u.priority) ∧ ∀ v, v ∈ inSlotOrder old now ↔ v ∈ now := by
  obtain ⟨ho, hm⟩ := foldl_insertWaiter (js := (List.finRange 256).flatMap fun i => now.filter fun w =>
      !(old.any fun v => decide (v.handle = w.handle)) && decide (w.handle.slot = i))
    (h.filter fun w => old.any fun v => decide (v.handle = w.handle))
  refine ⟨ho, fun v => (hm v).trans ?_⟩
  simp only [List.mem_flatMap, List.mem_filter, List.mem_finRange, true_and]
  cases old.any fun u => decide (u.handle = v.handle) <;> simp

/-! ### A change of a selector (R101, R111, R117) -/

/-- The protection record follows a selector; the selectors and the view of the lanes stay. -/
theorem followLane_view (i : SlotId) (old new : Selector) (d : Device) :
    (followLane i old new d).psu.selectors = d.psu.selectors ∧ (followLane i old new d).psu.failed = d.psu.failed
      ∧ (followLane i old new d).psu.quarantined = d.psu.quarantined := by
  unfold followLane
  repeat' split
  all_goals exact ⟨rfl, rfl, rfl⟩

theorem reselect_psu (i : SlotId) (l : Lane) (d : Device) : (reselect i l d).psu = d.psu := by
  unfold reselect; split <;> rfl

/-- Of the PSU, a change of a selector sets it and has the protection record follow; the rest is the node's and the notices'. -/
theorem moveSelector_psu {i : SlotId} {old : Selector} (new : Selector) {d : Device} (h : selectorAt d i = some old) :
    (moveSelector i new d).psu = (followLane i old new (setSelector i (some new) d)).psu := by
  unfold moveSelector
  rw [h]
  dsimp only
  repeat' split
  all_goals first | rfl | exact reselect_psu _ _ _

/-- A change of a selector: it takes its new value, and every other selector and the view of the lanes stay. -/
theorem moveSelector_view {i : SlotId} {old : Selector} (new : Selector) {d : Device} (h : selectorAt d i = some old) :
    selectorAt (moveSelector i new d) i = some new ∧ (∀ j, j ≠ i → selectorAt (moveSelector i new d) j = selectorAt d j)
      ∧ (moveSelector i new d).psu.failed = d.psu.failed ∧ (moveSelector i new d).psu.quarantined = d.psu.quarantined := by
  obtain ⟨h1, h2, h3⟩ := followLane_view i old new (setSelector i (some new) d)
  unfold selectorAt
  rw [moveSelector_psu new h, h1, h2, h3]
  exact ⟨upd_get_same _ _ _, fun j hj => upd_get_ne _ hj _, rfl, rfl⟩
/-! ### The arbiter (R119) -/

/-- The waiter that the arbiter finds is the first in need. -/
theorem find_inNeed {d : Device} {l : Lane} {w : Waiter} {y : Selector} :
    FirstInNeed d l w y ↔ ((lane d l).waiting.find? fun w =>
        ((selectorAt d w.handle.slot).map fun s => laneFailed d s.working).getD false) = some w
      ∧ selectorAt d w.handle.slot = some y := by
  rw [List.find?_eq_some_iff_append]
  constructor
  · rintro ⟨pre, post, h1, h2, h3, h4⟩
    refine ⟨⟨by rw [h2]; exact h3, pre, post, h1, fun v hv => ?_⟩, h2⟩
    cases hx : selectorAt d v.handle.slot with
    | none => rfl
    | some x => simp [h4 v hv x hx]
  · rintro ⟨⟨h3, pre, post, h1, h4⟩, h2⟩
    rw [h2] at h3
    refine ⟨pre, post, h1, h2, h3, fun v hv x hx => ?_⟩
    have := h4 v hv
    rw [hx] at this
    simpa using this

/-- The arbiter grants nothing while the lane is held or failed, or where no booking in need waits for it. -/
theorem arbitrate_idle {d : Device} {l : Lane}
    (h : (lane d l).holder ≠ none ∨ laneFailed d l = true ∨ ∀ w y, ¬FirstInNeed d l w y) : arbitrate l d = d := by
  unfold arbitrate
  split
  · next hc =>
    split
    · rfl
    · next w hw =>
      split
      · rfl
      · next s hs =>
        rcases h with h | h | h
        · exact absurd hc.1 h
        · rw [hc.2] at h; cases h
        · exact absurd (find_inNeed.mpr ⟨hw, hs⟩) (h w s)
  · rfl

/-- A free healthy lane goes to the first booking in need. -/
theorem arbitrate_grants {d : Device} {l : Lane} {w : Waiter} {y : Selector} (hf : (lane d l).holder = none)
    (hh : laneFailed d l = false) (h : FirstInNeed d l w y) :
    arbitrate l d = moveSelector w.handle.slot { y with state := .onProtection, timer := none } d := by
  obtain ⟨hw, hy⟩ := find_inNeed.mp h
  unfold arbitrate
  rw [if_pos ⟨hf, hh⟩]
  split
  · next hn => rw [hw] at hn; cases hn
  · next v hv =>
    rw [hw] at hv; cases hv
    rw [hy]

/-! ### Counts over an interval (R44, R47) -/

/-- A count that is below a limit at every rising instant of an interval is below it at every instant. -/
theorem countAt_lt {a b n : Nat} {os : List (SlotId × Booking)}
    (h : (risingInstants a b os).all (fun x => decide (countAt os x < n)) = true) {x : Nat} (ha : a ≤ x) (hb : x < b) :
    countAt os x < n := by
  have hall : ∀ y ∈ risingInstants a b os, countAt os y < n := fun y hy => by simpa using List.all_eq_true.mp h y hy
  suffices ∃ y ∈ risingInstants a b os, y ≤ x ∧ ∀ o ∈ os, intervalFirst o.2 ≤ x → intervalFirst o.2 ≤ y by
    obtain ⟨y, hy, hyx, hle⟩ := this
    refine Nat.lt_of_le_of_lt ?_ (hall y hy)
    unfold countAt
    refine List.countP_mono_left fun o ho hc => ?_
    simp only [containsInstant, Bool.and_eq_true, decide_eq_true_eq] at hc ⊢
    exact ⟨hle o ho hc.1, by omega⟩
  clear h hall
  induction os with
  | nil => exact ⟨a, by simp [risingInstants], ha, fun o ho => absurd ho List.not_mem_nil⟩
  | cons o os ih =>
    obtain ⟨y, hy, hyx, hle⟩ := ih
    have hsub : ∀ z ∈ risingInstants a b os, z ∈ risingInstants a b (o :: os) := by
      intro z hz
      simp only [risingInstants, List.map_cons, List.mem_cons, List.mem_filter, List.mem_map] at hz ⊢
      rcases hz with rfl | ⟨hz, hp⟩
      · exact .inl rfl
      · exact .inr ⟨.inr hz, hp⟩
    by_cases hc : intervalFirst o.2 ≤ x ∧ y < intervalFirst o.2
    · have hay : a ≤ y := by
        simp only [risingInstants, List.mem_cons, List.mem_filter] at hy
        rcases hy with rfl | ⟨_, hp⟩
        · exact Nat.le_refl _
        · simp at hp; exact hp.1
      refine ⟨intervalFirst o.2, ?_, hc.1, fun p hp hpx => ?_⟩
      · simp only [risingInstants, List.map_cons, List.mem_cons, List.mem_filter]
        exact .inr ⟨.inl trivial, by simp; omega⟩
      · rcases List.mem_cons.mp hp with rfl | hp
        · exact Nat.le_refl _
        · have := hle p hp hpx; omega
    · refine ⟨y, hsub y hy, hyx, fun p hp hpx => ?_⟩
      rcases List.mem_cons.mp hp with rfl | hp
      · omega
      · exact hle p hp hpx

/-! ### Draining (R92, R95) -/

/-- While a port is UNKNOWN, the draining rule frees no node. -/
theorem freeNodes_unknown {d : Device} {p : HandoffPort} (h : (port d p).confirmed = .unknown) : freeNodes d = d := by
  have hd : ∀ n, drained d n = false := fun n => by
    have : ((List.finRange 32).all fun q =>
        decide ((port d q).confirmed ≠ .node n) && decide ((port d q).confirmed ≠ .unknown)) = false :=
      List.all_eq_false.mpr ⟨p, List.mem_finRange p, by simp [h]⟩
    simp only [drained, this, Bool.and_false, Bool.false_and]
  unfold freeNodes
  generalize List.finRange 48 = ns
  induction ns with
  | nil => rfl
  | cons n ns ih => rw [List.foldl_cons, if_neg (by simp [hd n]), ih]

/-! ### Settlement (R170) and the late cancel (R171) -/

theorem resolveRun_eq (r : RecipientMeter) : resolveRun r = settledMeter r := by
  obtain ⟨a, _, _, _, _, _, _, _⟩ := r
  cases a <;> rfl

@[simp] theorem unmetered_node (b : Booking) (m : MeterRecord) : (unmetered b m).node = m.node := rfl
@[simp] theorem unmetered_switchMark (b : Booking) (m : MeterRecord) : (unmetered b m).switchMark = m.switchMark := rfl
@[simp] theorem unmetered_queue (b : Booking) (m : MeterRecord) : (unmetered b m).queue = [] := rfl
@[simp] theorem unmetered_taken (b : Booking) (m : MeterRecord) : (unmetered b m).taken = m.taken := rfl
@[simp] theorem unmetered_recipients (b : Booking) (m : MeterRecord) :
    (unmetered b m).recipients = b.recipients.map fun _ => freshRecipient := rfl

/-! ### Placement (R182, R184) -/

/-- A booking's records depend on its slot's generation, the restart number and the account of each port alone. -/
theorem billRecords_congr {d d' : Device} (i : SlotId) (b : Booking) (hc : d'.csc = d.csc) (hh : handleAt d' i = handleAt d i)
    (serial : Word) (xs : List (HandoffPort × Charge)) : billRecords d' i b serial xs = billRecords d i b serial xs := by
  induction xs generalizing serial with
  | nil => rfl
  | cons x xs ih => simp only [billRecords, billRecord, hc, hh, ih]

theorem placedRecords_congr {d d' : Device} (hc : d'.csc = d.csc) (xs : List SlotId)
    (h : ∀ i ∈ xs, d'.bkc.slots.get i = d.bkc.slots.get i) (serial : Word) :
    placedRecords d' serial xs = placedRecords d serial xs := by
  induction xs generalizing serial with
  | nil => rfl
  | cons i rest ih =>
    have hi := h i List.mem_cons_self
    have hb : bookingAt d' i = bookingAt d i := by unfold bookingAt; rw [hi]
    have hh : handleAt d' i = handleAt d i := by unfold handleAt; rw [hi]
    have ih := ih fun j hj => h j (List.mem_cons_of_mem _ hj)
    simp only [placedRecords, hb]
    split
    · exact ih serial
    · simp only [billRecords_congr i _ hc hh, ih]

theorem placeBooking_queue (i : SlotId) (b : Booking) (d : Device) : (placeBooking i b d).bq
    = ⟨d.bq.queue ++ billRecords d i b d.bq.nextSerial (b.recipients.zip b.charges),
       d.bq.nextSerial + BitVec.ofNat 32 (billRecords d i b d.bq.nextSerial (b.recipients.zip b.charges)).length⟩ := rfl

theorem placeBooking_csc (i : SlotId) (b : Booking) (d : Device) : (placeBooking i b d).csc = d.csc := rfl

theorem placeBooking_unbilled (i : SlotId) (b : Booking) (d : Device) :
    (placeBooking i b d).bkc.unbilled = d.bkc.unbilled.filter fun j => decide (j ≠ i) := rfl

theorem placeBooking_slot (i : SlotId) (b : Booking) (d : Device) (j : SlotId) : (placeBooking i b d).bkc.slots.get j
    = if j = i then ⟨(d.bkc.slots.get i).generation + 1, none⟩ else d.bkc.slots.get j := by
  show (upd d.bkc.slots i fun s => ⟨s.generation + 1, none⟩).get j = _
  rw [upd_get]

theorem placeBooking_record (i : SlotId) (b : Booking) (d : Device) (j : SlotId) : (placeBooking i b d).svm.records.get j
    = if j = i then none else d.svm.records.get j := by
  show (upd d.svm.records i fun _ => none).get j = _
  rw [upd_get]

/-- A booking that has joined the tail of the list is placed at once where the list was empty and the queue has room. -/
theorem placeHead_becomes {i : SlotId} {b : Booking} {d e : Device} (hcsc : e.csc = d.csc) (hbq : e.bq = d.bq)
    (hsvm : e.svm = d.svm) (hun : e.bkc.unbilled = d.bkc.unbilled ++ [i])
    (hslot : e.bkc.slots.get i = ⟨(d.bkc.slots.get i).generation, some b⟩) :
    BecomesUnbilled d (if d.bkc.unbilled.isEmpty then placeHead e else e) i b (d.svm.records.get i) := by
  have hbk : bookingAt e i = some b := by unfold bookingAt; rw [hslot]
  by_cases hn : d.bkc.unbilled = []
  · have hp : placeHead e = if d.bq.queue.length + b.recipients.length ≤ 512 then placeBooking i b e else e := by
      simp only [placeHead, hun, hn, List.nil_append, placeList, hbk, hbq]; rfl
    rw [hn, List.isEmpty_nil, if_pos rfl, hp]
    by_cases hf : d.bq.queue.length + b.recipients.length ≤ 512
    · rw [if_pos hf]
      refine ⟨fun _ => ⟨?_, ?_, ?_, ?_⟩, fun h => absurd ⟨hn, hf⟩ h⟩
      · rw [placeBooking_queue, hbq, billRecords_congr i b hcsc (by unfold handleAt; rw [hslot])]
      · rw [placeBooking_unbilled, hun, hn]; simp
      · rw [placeBooking_slot, if_pos rfl, hslot]
      · rw [placeBooking_record, if_pos rfl]
    · rw [if_neg hf]
      exact ⟨fun h => absurd h.2 hf, fun _ => ⟨hbq, hun, hslot, by rw [hsvm]⟩⟩
  · have he : d.bkc.unbilled.isEmpty = false := by simpa using hn
    rw [he, if_neg (by decide)]
    exact ⟨fun h => absurd h.1 hn, fun _ => ⟨hbq, hun, hslot, by rw [hsvm]⟩⟩

/-- What a booking's joining of the unbilled list does, once for the settlement and the late cancel. -/
theorem joinUnbilled_becomes {i : SlotId} {b : Booking} {d : Device} (cs : List Charge) (h : bookingAt d i = some b) :
    BecomesUnbilled d (joinUnbilled i cs d) i { b with state := .unbilled, charges := cs } (d.svm.records.get i) := by
  refine placeHead_becomes (e := { updBooking i (fun b => { b with state := .unbilled, charges := cs }) d with
    bkc := { (updBooking i (fun b => { b with state := .unbilled, charges := cs }) d).bkc with
      unbilled := d.bkc.unbilled ++ [i] } }) rfl rfl rfl rfl ?_
  show (upd d.bkc.slots i _).get i = _
  rw [upd_get_same, show (d.bkc.slots.get i).booking = some b from h]
  rfl

/-- Placement takes the bookings of a list as far as each in turn fits: their records stand at the tail with the next serials,
their slots are FREE, and nothing else of the calendar and the meters changes. -/
theorem placeList_places (xs : List SlotId) (d : Device) (hn : xs.Nodup) (hb : ∀ i ∈ xs, ∃ b, bookingAt d i = some b) :
    ∃ placed waiting, xs = placed ++ waiting
      ∧ (placeList xs d).bq.queue = d.bq.queue ++ placedRecords d d.bq.nextSerial placed
      ∧ (placeList xs d).bq.nextSerial
          = d.bq.nextSerial + BitVec.ofNat 32 (placedRecords d d.bq.nextSerial placed).length
      ∧ (placeList xs d).bkc.unbilled = d.bkc.unbilled.filter (fun j => decide (j ∉ placed))
      ∧ (∀ i ∈ placed, (placeList xs d).bkc.slots.get i = ⟨(d.bkc.slots.get i).generation + 1, none⟩
          ∧ (placeList xs d).svm.records.get i = none)
      ∧ (∀ i, i ∉ placed → (placeList xs d).bkc.slots.get i = d.bkc.slots.get i
          ∧ (placeList xs d).svm.records.get i = d.svm.records.get i)
      ∧ ∀ i after b, waiting = i :: after → bookingAt d i = some b →
          Config.queueCapacity < (placeList xs d).bq.queue.length + b.recipients.length := by
  induction xs generalizing d with
  | nil =>
    refine ⟨[], [], rfl, (List.append_nil _).symm, (BitVec.add_zero _).symm, ?_, fun i h => absurd h List.not_mem_nil, fun i _ => ⟨rfl, rfl⟩, fun i a b h => by cases h⟩
    simp only [placeList, List.not_mem_nil, not_false_iff, decide_true]
    exact (List.filter_eq_self.mpr fun _ _ => rfl).symm
  | cons i rest ih =>
    obtain ⟨b, hi⟩ := hb i List.mem_cons_self
    obtain ⟨hir, hnr⟩ := List.nodup_cons.mp hn
    by_cases hfit : d.bq.queue.length + b.recipients.length ≤ Config.queueCapacity
    · have hstep : placeList (i :: rest) d = placeList rest (placeBooking i b d) := by simp only [placeList, hi, hfit, if_true]
      have hslot : ∀ j ∈ rest, (placeBooking i b d).bkc.slots.get j = d.bkc.slots.get j := fun j hj => by
        rw [placeBooking_slot, if_neg (by rintro rfl; exact hir hj)]
      have hbk : ∀ j ∈ rest, bookingAt (placeBooking i b d) j = bookingAt d j := fun j hj => by
        unfold bookingAt; rw [hslot j hj]
      obtain ⟨placed, waiting, h1, h2, h3, h4, h5, h6, h7⟩ := ih (placeBooking i b d) hnr fun j hj => by
        rw [hbk j hj]; exact hb j (List.mem_cons_of_mem _ hj)
      have hpr : ∀ s, placedRecords (placeBooking i b d) s placed = placedRecords d s placed :=
        placedRecords_congr (placeBooking_csc i b d) placed fun j hj => hslot j (by rw [h1]; exact List.mem_append_left _ hj)
      have hip : i ∉ placed := fun h => hir (by rw [h1]; exact List.mem_append_left _ h)
      rw [hstep]
      refine ⟨i :: placed, waiting, by rw [h1]; rfl, ?_, ?_, ?_, fun j hj => ?_, fun j hj => ?_, fun j after c hw hc => ?_⟩
      · rw [h2, hpr, placeBooking_queue]
        simp only [placedRecords, hi, List.append_assoc]
      · rw [h3, hpr, placeBooking_queue]
        simp only [placedRecords, hi, List.length_append, BitVec.ofNat_add, BitVec.add_assoc]
      · rw [h4, placeBooking_unbilled, List.filter_filter]
        refine List.filter_congr fun j _ => ?_
        simp only [List.mem_cons, not_or, ne_eq, Bool.decide_and]
        exact Bool.and_comm _ _
      · by_cases hj' : j = i
        · subst hj'
          rw [(h6 j hip).1, (h6 j hip).2, placeBooking_slot, placeBooking_record, if_pos rfl, if_pos rfl]
          exact ⟨rfl, rfl⟩
        · have hm := (List.mem_cons.mp hj).resolve_left hj'
          rw [(h5 j hm).1, (h5 j hm).2, placeBooking_slot, if_neg hj']
          exact ⟨rfl, rfl⟩
      · rw [List.mem_cons, not_or] at hj
        rw [(h6 j hj.2).1, (h6 j hj.2).2, placeBooking_slot, placeBooking_record, if_neg hj.1, if_neg hj.1]
        exact ⟨rfl, rfl⟩
      · exact h7 j after c hw (by rw [hbk j (by rw [h1, hw]; simp)]; exact hc)
    · have hstop : placeList (i :: rest) d = d := by simp only [placeList, hi, hfit, if_false]
      rw [hstop]
      refine ⟨[], i :: rest, rfl, (List.append_nil _).symm, (BitVec.add_zero _).symm, ?_, fun i h => absurd h List.not_mem_nil, fun _ _ => ⟨rfl, rfl⟩, ?_⟩
      · exact (List.filter_eq_self.mpr fun _ _ => by simp).symm
      · intro j after c hw hc
        cases hw
        rw [hi] at hc; cases hc
        omega

end Sys2Proof.Machine
end

