-- ==== Sys2Proof/Laws/Memory.lean ====
section
/-! SUPPORT. The laws of the addressed buffers: a read after a write, and the canonical form that every operation keeps. -/

namespace Sys2Proof.Machine

/-- A read after a write: the written address gives the value, every other address reads as before. -/
theorem Memory.read_write {blank : Byte} {low : Nat} {m : Memory} (h : Memory.wfFrom blank low m = true) (x : Nat)
    (hx : low ≤ x) (v : Byte) (y : Nat) :
    Memory.read blank (Memory.write blank m x v) y = if y = x then v else Memory.read blank m y := by
  induction m generalizing low with
  | nil =>
    simp only [Memory.write]
    split <;> rename_i hv <;> by_cases hy : y = x
    · simp [Memory.read, hy, hv]
    · simp [Memory.read, hy]
    · simp [Memory.read, hy]
    · simp [Memory.read, hy, Ne.symm hy]
  | cons e rest ih =>
    obtain ⟨a, w⟩ := e
    simp only [Memory.wfFrom, Bool.and_eq_true, decide_eq_true_eq] at h
    obtain ⟨⟨hlow, hw⟩, hrest⟩ := h
    have below : ∀ {l : Nat} {r : Memory}, Memory.wfFrom blank l r = true → ∀ z, z < l → Memory.read blank r z = blank := by
      intro l r
      induction r generalizing l with
      | nil => intros; rfl
      | cons f r ihr =>
        obtain ⟨b, u⟩ := f
        intro hf z hz
        simp only [Memory.wfFrom, Bool.and_eq_true, decide_eq_true_eq] at hf
        rw [Memory.read, if_neg (by omega)]
        exact ihr hf.2 z (by omega)
    simp only [Memory.write]
    by_cases h1 : x < a
    · rw [if_pos h1]
      by_cases hv : v = blank
      · rw [if_pos hv]
        by_cases hy : y = x
        · subst hy
          rw [if_pos rfl, Memory.read, if_neg (by omega), below hrest y (by omega), hv]
        · rw [if_neg hy]
      · rw [if_neg hv]
        by_cases hy : y = x
        · simp [Memory.read, hy]
        · rw [Memory.read, if_neg (Ne.symm hy), if_neg hy]
    · rw [if_neg h1]
      by_cases h2 : x = a
      · subst h2
        rw [if_pos rfl]
        by_cases hv : v = blank
        · rw [if_pos hv]
          by_cases hy : y = x
          · subst hy
            rw [if_pos rfl, below hrest y (by omega), hv]
          · rw [if_neg hy]
            rw [Memory.read.eq_2, if_neg (Ne.symm hy)]
        · rw [if_neg hv]
          by_cases hy : y = x
          · simp [Memory.read, hy]
          · rw [Memory.read, if_neg (Ne.symm hy), if_neg hy, Memory.read, if_neg (Ne.symm hy)]
      · rw [if_neg h2]
        by_cases ha : a = y
        · subst ha
          simp [Memory.read, Ne.symm h2]
        · rw [Memory.read, if_neg ha, ih hrest (by omega), Memory.read.eq_2, if_neg ha]

/-- A write keeps the canonical form. -/
theorem Memory.wfFrom_write {blank : Byte} {low : Nat} {m : Memory} (h : Memory.wfFrom blank low m = true) (x : Nat)
    (hx : low ≤ x) (v : Byte) : Memory.wfFrom blank low (Memory.write blank m x v) = true := by
  induction m generalizing low with
  | nil =>
    simp only [Memory.write]
    split <;> rename_i hv
    · rfl
    · simp [Memory.wfFrom, hx, hv]
  | cons e rest ih =>
    obtain ⟨a, w⟩ := e
    simp only [Memory.wfFrom, Bool.and_eq_true, decide_eq_true_eq] at h
    obtain ⟨⟨hlow, hw⟩, hrest⟩ := h
    have weaken : ∀ {l l' : Nat} {r : Memory}, l' ≤ l → Memory.wfFrom blank l r = true → Memory.wfFrom blank l' r = true := by
      intro l l' r hl hr
      cases r with
      | nil => rfl
      | cons f r =>
        obtain ⟨b, u⟩ := f
        simp only [Memory.wfFrom, Bool.and_eq_true, decide_eq_true_eq] at hr ⊢
        exact ⟨⟨by omega, hr.1.2⟩, hr.2⟩
    simp only [Memory.write]
    split
    · rename_i h1
      split
      · simp [Memory.wfFrom, hlow, hw, hrest]
      · rename_i hv
        simp only [Memory.wfFrom, Bool.and_eq_true, decide_eq_true_eq]
        exact ⟨⟨hx, hv⟩, ⟨by omega, hw⟩, hrest⟩
    · split
      · rename_i h2
        split
        · exact weaken (by omega) hrest
        · rename_i hv
          subst h2
          simp [Memory.wfFrom, hlow, hv, hrest]
      · simp only [Memory.wfFrom, Bool.and_eq_true, decide_eq_true_eq]
        exact ⟨⟨hlow, hw⟩, ih hrest (by omega)⟩

/-- An empty buffer, which every area of the reset state is, is in canonical form. -/
theorem Memory.wf_nil (blank : Byte) : Memory.wf blank [] = true := rfl

/-- A write keeps the canonical form of a whole buffer. -/
theorem Memory.wf_write {blank : Byte} {m : Memory} (h : Memory.wf blank m = true) (x : Nat) (v : Byte) :
    Memory.wf blank (Memory.write blank m x v) = true := Memory.wfFrom_write h x (Nat.zero_le x) v

/-- A word write keeps the canonical form. -/
theorem Memory.wf_writeWord {blank : Byte} {m : Memory} (h : Memory.wf blank m = true) (base : Nat) (v : Word) :
    Memory.wf blank (Memory.writeWord blank m base v) = true :=
  Memory.wf_write (Memory.wf_write (Memory.wf_write (Memory.wf_write h _ _) _ _) _ _) _ _

/-- A buffer made from bytes has the canonical form from its first address on. -/
theorem Memory.wfFrom_ofBytes {blank : Byte} (bs : List Byte) :
    ∀ {low base : Nat}, low ≤ base → Memory.wfFrom blank low (Memory.ofBytes blank base bs) = true := by
  induction bs with
  | nil => intros; rfl
  | cons b rest ih =>
    intro low base hb
    simp only [Memory.ofBytes]
    split
    · exact ih (by omega)
    · rename_i hv
      simp only [Memory.wfFrom, Bool.and_eq_true, decide_eq_true_eq]
      exact ⟨⟨hb, hv⟩, ih (Nat.le_refl _)⟩

/-- A buffer made from bytes has the canonical form. -/
theorem Memory.wf_ofBytes {blank : Byte} (base : Nat) (bs : List Byte) :
    Memory.wf blank (Memory.ofBytes blank base bs) = true := Memory.wfFrom_ofBytes bs (Nat.zero_le base)

/-- What a buffer made from bytes reads: the byte at the address, and blank elsewhere. -/
theorem Memory.read_ofBytes {blank : Byte} (bs : List Byte) :
    ∀ (base x : Nat), Memory.read blank (Memory.ofBytes blank base bs) x
      = if base ≤ x then bs.getD (x - base) blank else blank := by
  induction bs with
  | nil => intro base x; simp [Memory.ofBytes, Memory.read]
  | cons b rest ih =>
    intro base x
    simp only [Memory.ofBytes]
    by_cases hb : b = blank
    · rw [if_pos hb, ih]
      by_cases hx : base ≤ x
      · rw [if_pos hx]
        by_cases he : x = base
        · subst he; rw [if_neg (by omega)]; simp [hb]
        · rw [if_pos (by omega), show x - base = (x - (base + 1)) + 1 by omega]
          simp
      · rw [if_neg hx, if_neg (by omega)]
    · rw [if_neg hb, Memory.read]
      by_cases he : base = x
      · subst he; simp
      · rw [if_neg he, ih]
        by_cases hx : base ≤ x
        · rw [if_pos hx, if_pos (by omega), show x - base = (x - (base + 1)) + 1 by omega]
          simp
        · rw [if_neg hx, if_neg (by omega)]

end Sys2Proof.Machine
end

