-- ==== Sys2Proof/Laws/Engine.lean ====
section
/-! SUPPORT. The command engine (R193): what taking and completing a command do, and that a command whose owner keeps the
windows ends as its reply says. -/

namespace Sys2Proof.Machine

@[simp] theorem onDevice_next (f : Device → Device) (s : State) : onDevice f s = .next ⟨f s.dev, s.pending⟩ := rfl

/-- An event of the device completes. -/
theorem answers_of_onDevice {c : Instr} {s : State} {f : Device → Device} (h : exec c s = onDevice f s) :
    Answers c s (f s.dev) := h

/-- A chosen port holds a posted code. -/
theorem chosenPort_posted {d : Device} {p : PortId} (h : chosenPort d = some p) : ∃ code, postedCode d p = some code := by
  unfold chosenPort at h
  split at h
  · have := List.find?_some h
    exact Option.isSome_iff_exists.mp this
  · cases h

/-- A chosen port is chosen by a free engine. -/
theorem chosenPort_free {d : Device} {p : PortId} (h : chosenPort d = some p) : engineFree d = true := by
  unfold chosenPort at h
  split at h
  · assumption
  · cases h

/-- The two facts behind `Takes`: the posted code, and that it names the command. -/
theorem takes_code {d : Device} {p : PortId} {c : Command} (h : Takes d p c) :
    ∃ code, postedCode d p = some code ∧ commandOf code = some c := by
  obtain ⟨hp, hc, _, _⟩ := h
  obtain ⟨code, hcode⟩ := chosenPort_posted hp
  exact ⟨code, hcode, by simpa [hcode] using hc⟩

/-- A permitted command of the chosen port reaches its owner. -/
theorem engage_takes {d : Device} {p : PortId} {c : Command} (k : PortId → Device → Device) (h : Takes d p c) :
    ∃ code, postedCode d p = some code ∧ commandOf code = some c ∧ engage c k d = k p (takeCommand p code d) := by
  obtain ⟨code, hcode, hc⟩ := takes_code h
  refine ⟨code, hcode, hc, ?_⟩
  unfold engage
  simp only [h.1, hcode, hc, if_pos, if_neg h.2.2.1, h.2.2.2]

@[simp] theorem takeCommand_tb (p : PortId) (c : Word) (d : Device) : (takeCommand p c d).tb = d.tb := rfl
@[simp] theorem takeCommand_owed (p : PortId) (c : Word) (d : Device) : (takeCommand p c d).owed = d.owed := rfl
@[simp] theorem takeCommand_csc (p : PortId) (c : Word) (d : Device) : (takeCommand p c d).csc = d.csc := rfl
@[simp] theorem takeCommand_bkc (p : PortId) (c : Word) (d : Device) : (takeCommand p c d).bkc = d.bkc := rfl
@[simp] theorem takeCommand_psu (p : PortId) (c : Word) (d : Device) : (takeCommand p c d).psu = d.psu := rfl
@[simp] theorem takeCommand_fcu (p : PortId) (c : Word) (d : Device) : (takeCommand p c d).fcu = d.fcu := rfl
@[simp] theorem takeCommand_lmn (p : PortId) (c : Word) (d : Device) : (takeCommand p c d).lmn = d.lmn := rfl
@[simp] theorem takeCommand_fra (p : PortId) (c : Word) (d : Device) : (takeCommand p c d).fra = d.fra := rfl
@[simp] theorem takeCommand_svm (p : PortId) (c : Word) (d : Device) : (takeCommand p c d).svm = d.svm := rfl
@[simp] theorem takeCommand_bq (p : PortId) (c : Word) (d : Device) : (takeCommand p c d).bq = d.bq := rfl

@[simp] theorem complete_tb (p : PortId) (r : Reply) (d : Device) : (complete p r d).tb = d.tb := rfl
@[simp] theorem complete_owed (p : PortId) (r : Reply) (d : Device) : (complete p r d).owed = d.owed := rfl
@[simp] theorem complete_csc (p : PortId) (r : Reply) (d : Device) : (complete p r d).csc = d.csc := rfl
@[simp] theorem complete_bkc (p : PortId) (r : Reply) (d : Device) : (complete p r d).bkc = d.bkc := rfl
@[simp] theorem complete_psu (p : PortId) (r : Reply) (d : Device) : (complete p r d).psu = d.psu := rfl
@[simp] theorem complete_fcu (p : PortId) (r : Reply) (d : Device) : (complete p r d).fcu = d.fcu := rfl
@[simp] theorem complete_lmn (p : PortId) (r : Reply) (d : Device) : (complete p r d).lmn = d.lmn := rfl
@[simp] theorem complete_fra (p : PortId) (r : Reply) (d : Device) : (complete p r d).fra = d.fra := rfl
@[simp] theorem complete_svm (p : PortId) (r : Reply) (d : Device) : (complete p r d).svm = d.svm := rfl
@[simp] theorem complete_bq (p : PortId) (r : Reply) (d : Device) : (complete p r d).bq = d.bq := rfl

theorem takeCommand_only (p : PortId) (c : Word) (d : Device) : OnlyChanges [.cpi] d (takeCommand p c d) :=
  fun b hb => by cases b <;> first | rfl | exact absurd (by decide) hb

theorem complete_only (p : PortId) (r : Reply) (d : Device) : OnlyChanges [.cpi] d (complete p r d) :=
  fun b hb => by cases b <;> first | rfl | exact absurd (by decide) hb

@[simp] theorem takeCommand_window_same (p : PortId) (c : Word) (d : Device) :
    window (takeCommand p c d) p = { window d p with command := .taken, code := c, result := none, field := none } :=
  window_updWindow_same p _ d

theorem takeCommand_window_ne {p q : PortId} (h : q ≠ p) (c : Word) (d : Device) :
    window (takeCommand p c d) q = window d q := window_updWindow_ne h _ d

@[simp] theorem complete_window_same (p : PortId) (r : Reply) (d : Device) :
    window (complete p r d) p = { window d p with
      response := Memory.ofBytes windowBlank 0 (r.response.take Config.responseBytes)
      result := some r.result
      field := r.field
      command := if r.result = .done then .done else .failed
      sticky := (window d p).sticky ||| commandNotice } := window_updWindow_same p _ d

theorem complete_window_ne {p q : PortId} (h : q ≠ p) (r : Reply) (d : Device) : window (complete p r d) q = window d q :=
  window_updWindow_ne h _ d

/-- A permitted command of the chosen port ends with its owner's device and reply. -/
theorem serve_takes {d : Device} {p : PortId} {c : Command} (owner : PortId → Memory → Device → Device × Reply)
    (h : Takes d p c) :
    ∃ code, postedCode d p = some code ∧ commandOf code = some c
      ∧ serve c owner d = complete p (owner p (window d p).params (takeCommand p code d)).2
          (owner p (window d p).params (takeCommand p code d)).1 := by
  obtain ⟨code, h1, h2, h3⟩ := engage_takes (fun p d =>
    complete p (owner p (window d p).params d).2 (owner p (window d p).params d).1) h
  refine ⟨code, h1, h2, ?_⟩
  unfold serve
  rw [h3]
  simp only [takeCommand_window_same]

/-- What a response area holds after a completion (R193). -/
theorem response_read (r : Reply) (i : Nat) (h : i < Config.responseBytes) :
    Memory.read windowBlank (Memory.ofBytes windowBlank 0 (r.response.take Config.responseBytes)) i
      = r.response.getD i 0#8 := by
  rw [Memory.read_ofBytes]
  simp [List.getD, h, windowBlank]

/-- A command whose owner leaves the windows but for sticky flags and the posting port's cursor ends as its reply says. -/
theorem answered_complete {d d1 : Device} {p : PortId} {code : Word} (r : Reply) (hc : postedCode d p = some code)
    (hp : ∃ x y, window d1 p = { window (takeCommand p code d) p with sticky := x, cursor := y })
    (hq : ∀ q, q ≠ p → ∃ x, window d1 q = { window d q with sticky := x })
    (h1 : d1.cpi.pointer = nextPort p) (h2 : d1.cpi.status = d.cpi.status) (h3 : d1.cpi.boot = d.cpi.boot)
    (h4 : d1.cpi.phase = d.cpi.phase) : Answered p r d (complete p r d1) := by
  obtain ⟨x, y, hp⟩ := hp
  rw [takeCommand_window_same] at hp
  refine ⟨by simp, by simp [hp, hc], by simp, by simp, ?_, by simp [hp], by simp [hp], ?_, h1, rfl, h2, h3, h4⟩
  · intro i hi
    rw [complete_window_same]
    exact response_read r i hi
  · intro q hne
    obtain ⟨z, hz⟩ := hq q hne
    rw [complete_window_ne hne, hz]

end Sys2Proof.Machine
end

