-- ==== Sys2Proof/Laws/Nodes.lean ====
section
/-! SUPPORT. The feed nodes: what the taking of a node, the freeing of one node and the draining rule can do, each said once
(R58, R60, R95, R160). -/

namespace Sys2Proof.Machine

/-! ### The claims of a booking that takes a node -/

/-- The ports of a booking take its claim; nothing else changes. -/
theorem placeLives (c : LiveClaim) (ps : List HandoffPort) (d : Device) :
    OnlyChanges [.fcu] d (ps.foldl (fun d p => placeLive c p d) d)
      ∧ (ps.foldl (fun d p => placeLive c p d) d).fcu.nodes = d.fcu.nodes
      ∧ (ps.foldl (fun d p => placeLive c p d) d).fcu.inFlight = d.fcu.inFlight
      ∧ ∀ q, (port (ps.foldl (fun d p => placeLive c p d) d) q).confirmed = (port d q).confirmed
        ∧ (port (ps.foldl (fun d p => placeLive c p d) d) q).live = if q ∈ ps then some c else (port d q).live := by
  induction ps generalizing d with
  | nil => exact ⟨fun b _ => by cases b <;> rfl, rfl, rfl, fun q => ⟨rfl, by simp⟩⟩
  | cons p ps ih =>
    obtain ⟨h1, h2, h3, h4⟩ := ih (placeLive c p d)
    have hp : ∀ q, (port (placeLive c p d) q).confirmed = (port d q).confirmed
        ∧ (port (placeLive c p d) q).live = if q = p then some c else (port d q).live := fun q => by
      have : port (placeLive c p d) q = (upd d.fcu.ports p _).get q := rfl
      rw [this, upd_get]
      by_cases hq : q = p
      · subst hq; simp [port]
      · simp [hq, port]
    refine ⟨fun b hb => ?_, h2, h3, fun q => ⟨(h4 q).1.trans (hp q).1, ?_⟩⟩
    · have := h1 b hb
      cases b <;> first | exact this | exact absurd (by decide) hb
    · rw [List.foldl_cons, (h4 q).2, (hp q).2]
      by_cases h5 : q ∈ ps
      · simp [h5]
      · by_cases h6 : q = p <;> simp [h5, h6]

/-! ### One node -/

/-- The entry of a node that a booking takes. -/
def takenEntry (h : Handle) (lane : Lane) (e : NodeEntry) : NodeEntry :=
  { e with
    state := .owned, owner := some h, established := false, desired := some lane
    stuck := e.stuck && decide (e.desired = some lane) }

/-- The lane that a booking which takes a node wants of it. -/
def wantedLane (d : Device) (i : SlotId) (b : Booking) : Lane := ((selectorAt d i).map selectedLane).getD b.working

/-- What a booking's taking of a node does (R58, R60, R81, R160). -/
theorem takeNode_takes {i : SlotId} {b : Booking} {d : Device} (n : FeedNode) (h : bookingAt d i = some b) :
    OnlyChanges [.fcu, .bkc, .svm] d (takeNode i n d) ∧ (takeNode i n d).fcu.inFlight = d.fcu.inFlight
      ∧ (takeNode i n d).bkc.nodeWait = d.bkc.nodeWait
      ∧ (∀ m, node (takeNode i n d) m = if m = n then takenEntry (handleAt d i) (wantedLane d i b) (node d n) else node d m)
      ∧ (∀ p, (port (takeNode i n d) p).confirmed = (port d p).confirmed
          ∧ (port (takeNode i n d) p).live = if p ∈ b.recipients then some ⟨handleAt d i, n⟩ else (port d p).live)
      ∧ (∀ j, (takeNode i n d).bkc.slots.get j = if j = i
          then ⟨(d.bkc.slots.get i).generation, some { b with node := some n, nodeWait := false }⟩ else d.bkc.slots.get j)
      ∧ (∀ j, (takeNode i n d).svm.records.get j = if j = i
          then (d.svm.records.get i).map fun m => { m with node := some n } else d.svm.records.get j) := by
  unfold takeNode
  rw [h]
  dsimp only
  generalize he : updMeter i (fun m => { m with node := some n }) (updBooking i (fun b => { b with node := some n, nodeWait := false })
    (updNode n _ d)) = e
  obtain ⟨h1, h2, h3, h4⟩ := placeLives ⟨handleAt d i, n⟩ b.recipients e
  have hbkc := h1 .bkc (by decide)
  have hsvm := h1 .svm (by decide)
  simp only [SameBlock] at hbkc hsvm
  refine ⟨fun x hx => ?_, ?_, ?_, fun m => ?_, fun p => ⟨?_, ?_⟩, fun j => ?_, fun j => ?_⟩
  · have hx' : x ∉ [Block.fcu] := fun e => hx (by rw [List.mem_singleton.mp e]; decide)
    have := h1 x hx'
    subst he
    cases x <;> first | exact this | exact absurd (by decide) hx
  · rw [h3, ← he]; rfl
  · rw [hbkc, ← he]; rfl
  · show (_ : Device).fcu.nodes.get m = _
    rw [h2, ← he]
    show (upd d.fcu.nodes n _).get m = _
    rw [upd_get]
    rfl
  · rw [(h4 p).1, ← he]; rfl
  · rw [(h4 p).2, ← he]; rfl
  · rw [hbkc, ← he]
    show (upd d.bkc.slots i _).get j = _
    rw [upd_get, show (d.bkc.slots.get i).booking = some b from h]
    rfl
  · rw [hsvm, ← he]
    show (upd d.svm.records i _).get j = _
    rw [upd_get]

/-- A node that comes free without a booking waiting (R60). -/
theorem nodeFreed_free {d : Device} (n : FeedNode) (h : d.bkc.nodeWait = []) :
    nodeFreed n d = updNode n (fun e => { e with state := .free }) d := by
  unfold nodeFreed
  have h' : (updNode n (fun e => { e with state := .free }) d).bkc.nodeWait = [] := h
  dsimp only
  rw [h']

/-- A node that comes free with a booking at the head of the list (R60). -/
theorem nodeFreed_grants {d : Device} {i : SlotId} {rest : List SlotId} {b : Booking} (n : FeedNode)
    (h : d.bkc.nodeWait = i :: rest) (hb : bookingAt d i = some b) :
    OnlyChanges [.fcu, .bkc, .svm, .cpi] d (nodeFreed n d) ∧ (nodeFreed n d).fcu.inFlight = d.fcu.inFlight
      ∧ (nodeFreed n d).bkc.nodeWait = rest
      ∧ (∀ m, node (nodeFreed n d) m = if m = n then takenEntry (handleAt d i) (wantedLane d i b) (node d n) else node d m)
      ∧ (∀ p, (port (nodeFreed n d) p).confirmed = (port d p).confirmed
          ∧ (port (nodeFreed n d) p).live = if p ∈ b.recipients then some ⟨handleAt d i, n⟩ else (port d p).live)
      ∧ (∀ j, (nodeFreed n d).bkc.slots.get j = if j = i
          then ⟨(d.bkc.slots.get i).generation, some { b with node := some n, nodeWait := false }⟩ else d.bkc.slots.get j)
      ∧ (∀ j, (nodeFreed n d).svm.records.get j = if j = i
          then (d.svm.records.get i).map fun m => { m with node := some n } else d.svm.records.get j)
      ∧ (∀ q, (window (nodeFreed n d) q).sticky &&& bookingNotice = bookingNotice) := by
  generalize he : ({ updNode n (fun e => { e with state := .free }) d with
    bkc := { d.bkc with nodeWait := rest } } : Device) = e
  have hf : nodeFreed n d = notifyAll bookingNotice (takeNode i n e) := by
    unfold nodeFreed
    have h' : (updNode n (fun e => { e with state := .free }) d).bkc.nodeWait = i :: rest := h
    dsimp only
    rw [h', ← he]
    rfl
  have hbe : bookingAt e i = some b := by rw [← he]; exact hb
  obtain ⟨h1, h2, h3, h4, h5, h6, h7⟩ := takeNode_takes n hbe
  have hn : ∀ m, node e m = if m = n then { node d n with state := .free } else node d m := fun m => by
    rw [← he]
    show (upd d.fcu.nodes n _).get m = _
    rw [upd_get]
    rfl
  rw [hf]
  refine ⟨fun x hx => ?_, ?_, ?_, fun m => ?_, fun p => ⟨?_, ?_⟩, fun j => ?_, fun j => ?_, fun q => ?_⟩
  · have := h1 x fun hm => hx (by revert hm; cases x <;> first | (intro _; decide) | exact fun h => absurd h (by decide))
    subst he
    cases x <;> first | exact this | exact absurd (by decide) hx
  · show (takeNode i n e).fcu.inFlight = _
    rw [h2, ← he]; rfl
  · show (takeNode i n e).bkc.nodeWait = _
    rw [h3, ← he]
  · show node (takeNode i n e) m = _
    rw [h4, hn, hn]
    by_cases hm : m = n
    · subst hm; simp only [if_true, ← he]; rfl
    · simp only [hm, if_false]
  · show (port (takeNode i n e) p).confirmed = _
    rw [(h5 p).1, ← he]; rfl
  · show (port (takeNode i n e) p).live = _
    rw [(h5 p).2, ← he]; rfl
  · show (takeNode i n e).bkc.slots.get j = _
    rw [h6, ← he]
  · show (takeNode i n e).svm.records.get j = _
    rw [h7, ← he]
    rfl
  · rw [window_notifyAll]
    refine BitVec.eq_of_getLsbD_eq fun k _ => ?_
    simp only [BitVec.getLsbD_and, BitVec.getLsbD_or]
    cases bookingNotice.getLsbD k
    · rw [Bool.and_false]
    · rw [Bool.or_true, Bool.and_true]

/-! ### The draining rule -/

/-- The draining rule, node by node in a list. -/
def freeThese (ns : List FeedNode) (d : Device) : Device := ns.foldl (fun d n => if drained d n then nodeFreed n d else d) d

/-- What the draining rule reads of a device other than the node's state. -/
theorem drained_congr {d e : Device} {n : FeedNode} (hn : node e n = node d n)
    (hp : ∀ p, (port e p).confirmed = (port d p).confirmed) (ho : e.fcu.inFlight = d.fcu.inFlight) :
    drained e n = drained d n := by
  simp only [drained, hn, hp, ho]

/-- What one freed node leaves to the rest of the rule. -/
theorem nodeFreed_leaves {d : Device} (n : FeedNode) (hb : ∀ i ∈ d.bkc.nodeWait, ∃ b, bookingAt d i = some b) :
    OnlyChanges [.fcu, .bkc, .svm, .cpi] d (nodeFreed n d) ∧ (nodeFreed n d).fcu.inFlight = d.fcu.inFlight
      ∧ (nodeFreed n d).bkc.nodeWait = d.bkc.nodeWait.drop 1
      ∧ (∀ m, m ≠ n → node (nodeFreed n d) m = node d m)
      ∧ (∀ m, (node (nodeFreed n d) m).confirmed = (node d m).confirmed)
      ∧ (∀ p, (port (nodeFreed n d) p).confirmed = (port d p).confirmed)
      ∧ (∀ i, i ∉ d.bkc.nodeWait.take 1 → (nodeFreed n d).bkc.slots.get i = d.bkc.slots.get i
          ∧ (nodeFreed n d).svm.records.get i = d.svm.records.get i)
      ∧ (∀ q, (window d q).sticky &&& bookingNotice = bookingNotice →
          (window (nodeFreed n d) q).sticky &&& bookingNotice = bookingNotice) := by
  cases hw : d.bkc.nodeWait with
  | nil =>
    rw [nodeFreed_free n hw]
    have hn : ∀ m, node (updNode n (fun e => { e with state := .free }) d) m
        = if m = n then { node d n with state := .free } else node d m := fun m => upd_get _ n m _
    refine ⟨fun x hx => ?_, rfl, hw, fun m hm => ?_, fun m => ?_, fun p => rfl, fun i _ => ⟨rfl, rfl⟩, fun q h => h⟩
    · cases x <;> first | rfl | exact absurd (by decide) hx
    · rw [hn, if_neg hm]
    · rw [hn]
      by_cases hm : m = n
      · subst hm; rw [if_pos rfl]
      · rw [if_neg hm]
  | cons i rest =>
    obtain ⟨b, hi⟩ := hb i (by rw [hw]; exact List.mem_cons_self)
    obtain ⟨h1, h2, h3, h4, h5, h6, h7, h8⟩ := nodeFreed_grants n hw hi
    refine ⟨h1, h2, h3, fun m hm => ?_, fun m => ?_, fun p => (h5 p).1, fun j hj => ?_, fun q _ => h8 q⟩
    · rw [h4, if_neg hm]
    · rw [h4]
      by_cases hm : m = n
      · subst hm; rw [if_pos rfl]; rfl
      · rw [if_neg hm]
    · have hji : j ≠ i := fun e => hj (by rw [e]; exact List.mem_cons_self)
      rw [h6, h7, if_neg hji, if_neg hji]
      exact ⟨rfl, rfl⟩

/-- What the draining rule over a list of nodes changes, and what it leaves. -/
theorem freeThese_leaves (ns : List FeedNode) (hns : ns.Nodup) (d : Device)
    (hb : ∀ i ∈ d.bkc.nodeWait, ∃ b, bookingAt d i = some b) (hw : d.bkc.nodeWait.Nodup) :
    OnlyChanges [.fcu, .bkc, .svm, .cpi] d (freeThese ns d) ∧ (freeThese ns d).fcu.inFlight = d.fcu.inFlight
      ∧ (freeThese ns d).bkc.nodeWait = d.bkc.nodeWait.drop (ns.filter (drained d)).length
      ∧ (∀ m, m ∉ ns.filter (drained d) → node (freeThese ns d) m = node d m)
      ∧ (∀ m, (node (freeThese ns d) m).confirmed = (node d m).confirmed)
      ∧ (∀ p, (port (freeThese ns d) p).confirmed = (port d p).confirmed)
      ∧ (∀ i, i ∉ d.bkc.nodeWait.take (ns.filter (drained d)).length →
          (freeThese ns d).bkc.slots.get i = d.bkc.slots.get i
            ∧ (freeThese ns d).svm.records.get i = d.svm.records.get i)
      ∧ (∀ q, (window d q).sticky &&& bookingNotice = bookingNotice →
          (window (freeThese ns d) q).sticky &&& bookingNotice = bookingNotice) := by
  induction ns generalizing d with
  | nil =>
    exact ⟨fun b _ => by cases b <;> rfl, rfl, rfl, fun _ _ => rfl, fun _ => rfl, fun _ => rfl, fun _ _ => ⟨rfl, rfl⟩, fun _ h => h⟩
  | cons n ns ih =>
    obtain ⟨hn, hns⟩ := List.nodup_cons.mp hns
    by_cases hd : drained d n = true
    · obtain ⟨h1, h2, h3, h4, h5, h6, h7, h8⟩ := nodeFreed_leaves n hb
      have hf : freeThese (n :: ns) d = freeThese ns (nodeFreed n d) := by
        show freeThese ns (if drained d n then nodeFreed n d else d) = _
        rw [if_pos hd]
      have hfilter : ns.filter (drained (nodeFreed n d)) = ns.filter (drained d) :=
        List.filter_congr fun m hm => drained_congr (h4 m fun e => hn (e ▸ hm)) h6 h2
      have hsub : ∀ i ∈ d.bkc.nodeWait.drop 1, i ∉ d.bkc.nodeWait.take 1 := by
        cases hwl : d.bkc.nodeWait with
        | nil => simp
        | cons i rest =>
          rw [hwl] at hw
          intro j hj hj'
          have : j = i := by simpa using hj'
          exact (List.nodup_cons.mp hw).1 (this ▸ hj)
      have hbk : ∀ i ∈ (nodeFreed n d).bkc.nodeWait, bookingAt (nodeFreed n d) i = bookingAt d i := fun i hi => by
        rw [h3] at hi
        unfold bookingAt
        rw [(h7 i (hsub i hi)).1]
      obtain ⟨g1, g2, g3, g4, g5, g6, g7, g8⟩ := ih hns (nodeFreed n d)
        (fun i hi => by rw [hbk i hi]; exact hb i (List.mem_of_mem_drop (by rw [h3] at hi; exact hi)))
        (by rw [h3]; exact hw.sublist (List.drop_sublist _ _))
      rw [hf, List.filter_cons_of_pos hd, List.length_cons]
      rw [hfilter] at g3 g4 g7
      refine ⟨fun x hx => ?_, g2.trans h2, ?_, fun m hm => ?_, fun m => (g5 m).trans (h5 m), fun p => (g6 p).trans (h6 p),
        fun i hi => ?_, fun q h => g8 q (h8 q h)⟩
      · have a := h1 x hx
        have b := g1 x hx
        cases x <;> first | exact absurd (by decide) hx | exact Eq.trans b a
      · rw [g3, h3, List.drop_drop, Nat.add_comm]
      · rw [List.mem_cons, not_or] at hm
        rw [g4 m hm.2, h4 m hm.1]
      · have ht : d.bkc.nodeWait.take ((ns.filter (drained d)).length + 1)
            = d.bkc.nodeWait.take 1 ++ (d.bkc.nodeWait.drop 1).take (ns.filter (drained d)).length := by
          rw [Nat.add_comm, List.take_add]
        rw [ht, List.mem_append, not_or] at hi
        rw [h3] at g7
        rw [(g7 i hi.2).1, (g7 i hi.2).2]
        exact h7 i hi.1
    · have hf : freeThese (n :: ns) d = freeThese ns d := by
        show freeThese ns (if drained d n then nodeFreed n d else d) = _
        rw [if_neg hd]
      rw [hf, List.filter_cons_of_neg hd]
      exact ih hns d hb hw

/-- A freed node with a booking at the head of the list, and what the rest of the list finds. -/
theorem nodeFreed_rest {d : Device} {i : SlotId} {rest : List SlotId} {b : Booking} (n : FeedNode)
    (hw : d.bkc.nodeWait = i :: rest) (hi : bookingAt d i = some b) (hnd : (i :: rest).Nodup) {j : SlotId} (hj : j ∈ rest) :
    (nodeFreed n d).bkc.slots.get j = d.bkc.slots.get j ∧ (nodeFreed n d).svm.records.get j = d.svm.records.get j := by
  obtain ⟨_, _, _, _, _, h6, h7, _⟩ := nodeFreed_grants n hw hi
  have hne : j ≠ i := fun e => (List.nodup_cons.mp hnd).1 (e ▸ hj)
  rw [h6, h7, if_neg hne, if_neg hne]
  exact ⟨rfl, rfl⟩

/-- A port that no waiting booking lists keeps its LIVE claim. -/
theorem freeThese_live (ns : List FeedNode) (d : Device) (hb : ∀ i ∈ d.bkc.nodeWait, ∃ b, bookingAt d i = some b)
    (hw : d.bkc.nodeWait.Nodup) {p : HandoffPort}
    (hp : ∀ i ∈ d.bkc.nodeWait, ∀ b, bookingAt d i = some b → p ∉ b.recipients) :
    (port (freeThese ns d) p).live = (port d p).live := by
  induction ns generalizing d with
  | nil => rfl
  | cons n ns ih =>
    show (port (freeThese ns (if drained d n then nodeFreed n d else d)) p).live = _
    by_cases hd : drained d n = true
    · rw [if_pos hd]
      cases hwl : d.bkc.nodeWait with
      | nil =>
        rw [nodeFreed_free n hwl]
        exact ih (updNode n (fun e => { e with state := .free }) d) hb hw hp
      | cons i rest =>
        obtain ⟨b, hi⟩ := hb i (by rw [hwl]; exact List.mem_cons_self)
        obtain ⟨_, _, h3, _, h5, _, _, _⟩ := nodeFreed_grants n hwl hi
        rw [hwl] at hw
        have hbk : ∀ j ∈ rest, bookingAt (nodeFreed n d) j = bookingAt d j := fun j hj => by
          unfold bookingAt; rw [(nodeFreed_rest n hwl hi hw hj).1]
        rw [ih (nodeFreed n d)
          (fun j hj => by rw [h3] at hj; rw [hbk j hj]; exact hb j (by rw [hwl]; exact List.mem_cons_of_mem _ hj))
          (by rw [h3]; exact (List.nodup_cons.mp hw).2)
          (fun j hj c hc => by
            rw [h3] at hj; rw [hbk j hj] at hc
            exact hp j (by rw [hwl]; exact List.mem_cons_of_mem _ hj) c hc),
          (h5 p).2, if_neg (hp i (by rw [hwl]; exact List.mem_cons_self) b hi)]
    · rw [if_neg hd]
      exact ih d hb hw hp

/-- The nodes that come free go, in order, to the bookings of the list, one each (R60, R95). -/
theorem freeThese_grants (ns : List FeedNode) (hns : ns.Nodup) (d : Device)
    (hb : ∀ i ∈ d.bkc.nodeWait, ∃ b, bookingAt d i = some b) (hw : d.bkc.nodeWait.Nodup) {k : Nat} {n : FeedNode} {i : SlotId}
    {b : Booking} (hk : (ns.filter (drained d))[k]? = some n) (hik : d.bkc.nodeWait[k]? = some i)
    (hi : bookingAt d i = some b) :
    node (freeThese ns d) n = takenEntry (handleAt d i) (wantedLane d i b) (node d n)
      ∧ bookingAt (freeThese ns d) i = some { b with node := some n, nodeWait := false }
      ∧ (freeThese ns d).svm.records.get i = (d.svm.records.get i).map (fun m => { m with node := some n })
      ∧ (∀ q, (window (freeThese ns d) q).sticky &&& bookingNotice = bookingNotice)
      ∧ ∀ p ∈ b.recipients, (∀ j c, j ≠ i → j ∈ d.bkc.nodeWait → bookingAt d j = some c → p ∉ c.recipients) →
          (port (freeThese ns d) p).live = some ⟨handleAt d i, n⟩ := by
  induction ns generalizing d k with
  | nil => cases hk
  | cons m ns ih =>
    obtain ⟨hm, hns⟩ := List.nodup_cons.mp hns
    have hf : freeThese (m :: ns) d = freeThese ns (if drained d m then nodeFreed m d else d) := rfl
    by_cases hd : drained d m = true
    · rw [hf, if_pos hd]
      rw [List.filter_cons_of_pos hd] at hk
      cases hwl : d.bkc.nodeWait with
      | nil => rw [hwl] at hik; cases hik
      | cons i0 rest =>
        rw [hwl] at hik hw hb
        obtain ⟨b0, hi0⟩ := hb i0 List.mem_cons_self
        obtain ⟨h1, h2, h3, h4, h5, h6, h7, h8⟩ := nodeFreed_grants m hwl hi0
        have hother : ∀ x ∈ ns, node (nodeFreed m d) x = node d x := fun x hx =>
          (h4 x).trans (if_neg fun e : x = m => hm (e ▸ hx))
        have hfilter : ns.filter (drained (nodeFreed m d)) = ns.filter (drained d) :=
          List.filter_congr fun n hn => drained_congr (hother n hn) (fun p => (h5 p).1) h2
        have hbk : ∀ j ∈ rest, bookingAt (nodeFreed m d) j = bookingAt d j := fun j hj => by
          unfold bookingAt; rw [(nodeFreed_rest m hwl hi0 hw hj).1]
        have hb' : ∀ j ∈ (nodeFreed m d).bkc.nodeWait, ∃ b, bookingAt (nodeFreed m d) j = some b := fun j hj => by
          rw [h3] at hj; rw [hbk j hj]; exact hb j (List.mem_cons_of_mem _ hj)
        have hw' : (nodeFreed m d).bkc.nodeWait.Nodup := by rw [h3]; exact (List.nodup_cons.mp hw).2
        obtain ⟨g1, g2, g3, g4, g5, g6, g7, g8⟩ := freeThese_leaves ns hns (nodeFreed m d) hb' hw'
        cases k with
        | zero =>
          obtain rfl : m = n := by simpa using hk
          obtain rfl : i0 = i := by simpa using hik
          rw [hi0] at hi; cases hi
          have hkeep : i0 ∉ (nodeFreed m d).bkc.nodeWait.take (ns.filter (drained (nodeFreed m d))).length := fun h => by
            rw [h3] at h
            exact (List.nodup_cons.mp hw).1 (List.mem_of_mem_take h)
          refine ⟨?_, ?_, ?_, fun q => g8 q (h8 q), fun p hp hpo => ?_⟩
          · rw [g4 m fun h => hm (List.mem_filter.mp h).1, h4, if_pos rfl]
          · unfold bookingAt
            rw [(g7 i0 hkeep).1, h6, if_pos rfl]
          · rw [(g7 i0 hkeep).2, h7, if_pos rfl]
          · rw [freeThese_live ns (nodeFreed m d) hb' hw' fun j hj c hc => ?_, (h5 p).2, if_pos hp]
            rw [h3] at hj
            rw [hbk j hj] at hc
            exact hpo j c (fun e => (List.nodup_cons.mp hw).1 (e ▸ hj)) (List.mem_cons_of_mem _ hj) hc
        | succ k =>
          rw [List.getElem?_cons_succ] at hk hik
          have hir : i ∈ rest := List.mem_of_getElem? hik
          have hnn : n ∈ ns := (List.mem_filter.mp (List.mem_of_getElem? hk)).1
          have hsl := nodeFreed_rest m hwl hi0 hw hir
          have hh : handleAt (nodeFreed m d) i = handleAt d i := by unfold handleAt; rw [hsl.1]
          have hl : wantedLane (nodeFreed m d) i b = wantedLane d i b := by
            unfold wantedLane selectorAt
            rw [show (nodeFreed m d).psu = d.psu from h1 .psu (by decide)]
          obtain ⟨e1, e2, e3, e4, e5⟩ := ih hns (nodeFreed m d) hb' hw' (by rw [hfilter]; exact hk) (by rw [h3]; exact hik)
            (by rw [hbk i hir]; exact hi)
          rw [hh, hl, hother n hnn] at e1
          rw [hsl.2] at e3
          rw [hh] at e5
          refine ⟨e1, e2, e3, e4, fun p hp hpo => e5 p hp fun j c hj hjw hc => ?_⟩
          rw [h3] at hjw
          rw [hbk j hjw] at hc
          exact hpo j c hj (List.mem_cons_of_mem _ hjw) hc
    · rw [hf, if_neg hd]
      rw [List.filter_cons_of_neg hd] at hk
      exact ih hns d hb hw hk hik hi

/-- Once the list is empty, the nodes that come free stay FREE. -/
theorem freeThese_free (ns : List FeedNode) (hns : ns.Nodup) (d : Device)
    (hb : ∀ i ∈ d.bkc.nodeWait, ∃ b, bookingAt d i = some b) (hw : d.bkc.nodeWait.Nodup) {k : Nat} {n : FeedNode}
    (hk : (ns.filter (drained d))[k]? = some n) (hle : d.bkc.nodeWait.length ≤ k) :
    node (freeThese ns d) n = { node d n with state := .free } := by
  induction ns generalizing d k with
  | nil => cases hk
  | cons m ns ih =>
    obtain ⟨hm, hns⟩ := List.nodup_cons.mp hns
    have hf : freeThese (m :: ns) d = freeThese ns (if drained d m then nodeFreed m d else d) := rfl
    by_cases hd : drained d m = true
    · rw [hf, if_pos hd]
      rw [List.filter_cons_of_pos hd] at hk
      obtain ⟨h1, h2, h3, h4, h5, h6, h7, h8⟩ := nodeFreed_leaves m hb
      have hother : ∀ n ∈ ns, node (nodeFreed m d) n = node d n := fun n hn => h4 n fun e => hm (e ▸ hn)
      have hfilter : ns.filter (drained (nodeFreed m d)) = ns.filter (drained d) :=
        List.filter_congr fun n hn => drained_congr (hother n hn) h6 h2
      have hb' : ∀ j ∈ (nodeFreed m d).bkc.nodeWait, ∃ b, bookingAt (nodeFreed m d) j = some b := fun j hj => by
        cases hwl : d.bkc.nodeWait with
        | nil => rw [h3, hwl] at hj; cases hj
        | cons i rest =>
          rw [h3, hwl] at hj
          obtain ⟨b, hi⟩ := hb i (by rw [hwl]; exact List.mem_cons_self)
          have hj' : j ∈ rest := hj
          have : bookingAt (nodeFreed m d) j = bookingAt d j := by
            unfold bookingAt; rw [(nodeFreed_rest m hwl hi (hwl ▸ hw) hj').1]
          rw [this]
          exact hb j (by rw [hwl]; exact List.mem_cons_of_mem _ hj')
      have hw' : (nodeFreed m d).bkc.nodeWait.Nodup := by rw [h3]; exact hw.sublist (List.drop_sublist _ _)
      cases k with
      | zero =>
        obtain rfl : m = n := by simpa using hk
        have hnil : d.bkc.nodeWait = [] := List.eq_nil_of_length_eq_zero (Nat.le_zero.mp hle)
        obtain ⟨_, _, _, g4, _, _, _, _⟩ := freeThese_leaves ns hns (nodeFreed m d) hb' hw'
        rw [g4 m fun h => hm (List.mem_filter.mp h).1, nodeFreed_free m hnil]
        exact upd_get_same _ m _
      | succ k =>
        rw [List.getElem?_cons_succ] at hk
        have hnn : n ∈ ns := (List.mem_filter.mp (List.mem_of_getElem? hk)).1
        rw [ih hns (nodeFreed m d) hb' hw' (by rw [hfilter]; exact hk) (by rw [h3, List.length_drop]; omega), hother n hnn]
    · rw [hf, if_neg hd]
      rw [List.filter_cons_of_neg hd] at hk
      exact ih hns d hb hw hk hle

/-- The draining rule's condition, as R95 words it. -/
theorem drained_iff (d : Device) (n : FeedNode) : drained d n = true ↔ (node d n).state = .draining
    ∧ (node d n).confirmed = .none ∧ (∀ p, (port d p).confirmed ≠ .node n ∧ (port d p).confirmed ≠ .unknown)
    ∧ ∀ o, d.fcu.inFlight = some o → o.kind ≠ .clearAll ∧ ¬concerns o.kind n := by
  have ho : ∀ k : OrderKind, orderNames k n = false ↔ k ≠ .clearAll ∧ ¬concerns k n := fun k => by
    cases k <;> simp [orderNames, concerns]
  unfold drained
  cases hf : d.fcu.inFlight with
  | none => simp [and_assoc]
  | some o =>
    simp only [Bool.and_eq_true, decide_eq_true_eq, List.all_eq_true, List.mem_finRange, forall_const, Bool.not_eq_true', ho,
      Option.some.injEq, forall_eq', and_assoc]

/-- The draining rule reuses the nodes as R60 and R95 say, in a state whose waiting bookings are there, each once. -/
theorem freeNodes_reuses (d : Device) (hb : ∀ i ∈ d.bkc.nodeWait, ∃ b, bookingAt d i = some b) (hw : d.bkc.nodeWait.Nodup)
    (ho : ∀ n, (node d n).state = .draining → (node d n).owner = none) :
    NodesReused (fun n => (node d n).state = .draining) d.fcu.inFlight d.bkc.nodeWait d (freeNodes d) := by
  have hns : (List.finRange 48).Nodup := List.nodup_finRange 48
  obtain ⟨h1, h2, h3, h4, h5, h6, h7, h8⟩ := freeThese_leaves (List.finRange 48) hns d hb hw
  have hmem : ∀ n, n ∈ (List.finRange 48).filter (drained d)
      ↔ ComesFree (fun n => (node d n).state = .draining) d.fcu.inFlight (freeThese (List.finRange 48) d) n := fun n => by
    rw [List.mem_filter, drained_iff]
    simp only [ComesFree, h5, h6, List.mem_finRange, true_and]
  show NodesReused _ _ _ d (freeThese (List.finRange 48) d)
  refine ⟨(List.finRange 48).filter (drained d), (List.pairwise_lt_finRange 48).filter _, hmem, h3, fun i hi => ?_,
    fun k n i b hk hik hi => ?_, fun k n hk hle => ?_, fun n hn hdr => ?_, fun n hdr => ?_, fun hfr hwt q => ?_⟩
  · have : i ∉ d.bkc.nodeWait.take ((List.finRange 48).filter (drained d)).length := fun h => by
      have hsplit := hw
      rw [← List.take_append_drop ((List.finRange 48).filter (drained d)).length d.bkc.nodeWait] at hsplit
      exact (List.nodup_append.mp hsplit).2.2 i h i hi rfl
    unfold bookingAt
    rw [(h7 i this).1]
  · obtain ⟨g1, g2, g3, _, g5⟩ := freeThese_grants (List.finRange 48) hns d hb hw hk hik hi
    refine ⟨by rw [g1]; rfl, by rw [g1]; rfl, by rw [g1]; rfl, fun x hx => ?_, g2, fun m hm => ?_, g5⟩
    · have hx' : selectorAt d i = some x := by
        unfold selectorAt at hx ⊢
        rwa [show (freeThese (List.finRange 48) d).psu = d.psu from h1 .psu (by decide)] at hx
      rw [g1]
      simp only [takenEntry, wantedLane, hx', Option.map_some, Option.getD_some]
    · rw [g3, hm]
      exact ⟨_, rfl, rfl, rfl, rfl⟩
  · rw [freeThese_free (List.finRange 48) hns d hb hw hk hle]
    have := (drained_iff d n).mp (List.mem_filter.mp (List.mem_of_getElem? hk)).2
    exact ⟨rfl, ho n this.1⟩
  · rw [h4 n hn]
    exact ⟨hdr, ho n hdr⟩
  · have hn : n ∉ (List.finRange 48).filter (drained d) := fun h =>
      hdr ((drained_iff d n).mp (List.mem_filter.mp h).2).1
    rw [h4 n hn]
    exact ⟨rfl, rfl⟩
  · cases hfl : (List.finRange 48).filter (drained d) with
    | nil => exact absurd hfl hfr
    | cons n ns =>
      cases hwl : d.bkc.nodeWait with
      | nil => exact absurd hwl hwt
      | cons i rest =>
        obtain ⟨b, hi⟩ := hb i (by rw [hwl]; exact List.mem_cons_self)
        exact (freeThese_grants (List.finRange 48) hns d hb hw (k := 0) (n := n) (i := i) (by rw [hfl]; rfl) (by rw [hwl]; rfl)
          hi).2.2.2.1 q

end Sys2Proof.Machine
end

