-- ==== Sys2Proof/Laws/Time.lean ====
section
/-! SUPPORT. The Time Base up to an instant: what a pulse finds taken before it (R21, R24 to R26), and the
MARK frames it leaves behind (R28). -/

namespace Sys2Proof.Machine

theorem watched_iff (d : Device) : watched d = true ↔ d.tb.ref = .locked ∨ d.tb.ref = .relocking := by
  unfold watched; cases d.tb.ref <;> simp

theorem oscillates_iff (d : Device) :
    oscillates d = true ↔ d.tb.ref = .absent ∨ d.tb.ref = .holdover ∨ (d.tb.ref = .relocking ∧ d.tb.spaced.val < 3) := by
  unfold oscillates; cases d.tb.ref <;> simp

/-- Where the boundary of the oscillator falls after an instant, none is made. -/
theorem runSeconds_idle {limit : Nat} {d : Device} (h : oscillates d = true → limit < d.tb.clock - d.tb.elapsed + 1000) :
    runSeconds limit d = d := by
  have h0 : secondsUntil limit d = 0 := by
    unfold secondsUntil
    split
    · next ho => have := h ho; simp only [Config.secondMs]; omega
    · rfl
  rw [runSeconds, h0]; rfl

/-- The boundary of the oscillator that is due by an instant is made, and then the others. -/
theorem runSeconds_due {limit : Nat} {d : Device} (ho : oscillates d = true)
    (h : d.tb.clock - d.tb.elapsed + 1000 ≤ limit) : runSeconds limit d = runSeconds limit (oscillatorBoundary d) := by
  have ho' : oscillates (oscillatorBoundary d) = true := by
    rw [oscillatorBoundary, if_pos ho]; exact ho
  have hb : (oscillatorBoundary d).tb.clock - (oscillatorBoundary d).tb.elapsed = d.tb.clock - d.tb.elapsed + 1000 := by
    rw [oscillatorBoundary, if_pos ho]
    simp only [makeBoundary, advanceTo, Config.secondMs]
    omega
  have : secondsUntil limit d = secondsUntil limit (oscillatorBoundary d) + 1 := by
    unfold secondsUntil
    rw [if_pos ho, if_pos ho', hb]
    simp only [Config.secondMs]
    omega
  rw [runSeconds, this]; rfl

theorem lossBefore_eq_some {limit e : Nat} {d : Device} :
    lossBefore limit d = some e ↔ watched d = true ∧ ∃ p, d.tb.lastPulse = some p ∧ e = p + 1200 ∧ e < limit := by
  unfold lossBefore
  cases d.tb.lastPulse <;> cases watched d <;> simp [Option.filter, Config.lossMs, eq_comm]
  next p => constructor <;> rintro ⟨a, b⟩ <;> constructor <;> omega

@[simp] theorem oscillatorBoundary_lossBefore (limit : Nat) (d : Device) :
    lossBefore limit (oscillatorBoundary d) = lossBefore limit d := by
  unfold oscillatorBoundary; split <;> rfl

/-- With nothing due before an instant the Time Base stands as it does. -/
theorem runTimeBase_idle {limit : Nat} {d : Device} (hl : lossBefore limit d = none)
    (h : oscillates d = true → limit < d.tb.clock - d.tb.elapsed + 1000) : runTimeBase limit d = d := by
  rw [runTimeBase, hl]; exact runSeconds_idle h

/-- A boundary of the oscillator that is due by the instant, and not after the loss, is made first (R21, R25). -/
theorem runTimeBase_boundary {limit : Nat} {d : Device} (ho : oscillates d = true)
    (h : d.tb.clock - d.tb.elapsed + 1000 ≤ limit)
    (hl : ∀ e, lossBefore limit d = some e → d.tb.clock - d.tb.elapsed + 1000 ≤ e) :
    runTimeBase limit d = runTimeBase limit (oscillatorBoundary d) := by
  rw [runTimeBase, runTimeBase, oscillatorBoundary_lossBefore]
  cases hx : lossBefore limit d with
  | none => exact runSeconds_due ho h
  | some e => simp only []; rw [runSeconds_due ho (hl e hx)]

theorem referenceLoss_unwatched {p : Nat} {d : Device} (hp : d.tb.lastPulse = some p) (hw : watched d = true) :
    watched (referenceLoss d) = false := by
  unfold referenceLoss
  rw [hp]
  simp only [hw, if_true]
  split <;> rfl

/-- A loss that is due before the instant, and before a boundary of the oscillator, is taken first (R24 to R26). -/
theorem runTimeBase_loss {limit e : Nat} {d : Device} (hl : lossBefore limit d = some e)
    (h : oscillates d = true → e < d.tb.clock - d.tb.elapsed + 1000) :
    runTimeBase limit d = runTimeBase limit (referenceLoss d) := by
  obtain ⟨hw, p, hp, _, _⟩ := lossBefore_eq_some.mp hl
  have hn : lossBefore limit (referenceLoss d) = none := by
    unfold lossBefore
    rw [referenceLoss_unwatched hp hw]; rfl
  rw [runTimeBase, runTimeBase, hl, hn]
  simp only []
  rw [runSeconds_idle h]

/-! ### The MARK frames (R28) -/

/-- What a boundary does to the Time Base and hands to the blocks. -/
theorem makeBoundary_made (instant : Nat) (d : Device) : BoundaryMade instant d (makeBoundary instant d) := by
  refine ⟨rfl, rfl, rfl, rfl, rfl, rfl, ?_⟩
  simp only [makeBoundary]
  split <;> simp

/-- Boundaries made one after another each send their MARK, oldest first. -/
theorem oscillatorBoundaries_marks (n : Nat) {d : Device} (h : oscillates d = true) :
    (oscillatorBoundaries n d).tb.marks
      = d.tb.marks ++ (List.range n).map fun k => markFrame (d.tb.time + BitVec.ofNat 32 (k + 1)) := by
  induction n generalizing d with
  | zero => simp [oscillatorBoundaries]
  | succ n ih =>
    have hb : oscillatorBoundary d = makeBoundary (d.tb.clock - d.tb.elapsed + Config.secondMs)
        (advanceTo (d.tb.clock - d.tb.elapsed + Config.secondMs) d) := if_pos h
    have ho : oscillates (oscillatorBoundary d) = true := by rw [hb]; exact h
    have ht : (oscillatorBoundary d).tb.time = d.tb.time + 1 := by rw [hb]; rfl
    have hm : (oscillatorBoundary d).tb.marks = d.tb.marks ++ [markFrame (d.tb.time + 1)] := by rw [hb]; rfl
    rw [oscillatorBoundaries, ih ho, hm, ht, List.range_succ_eq_map, List.map_cons, List.map_map, List.append_assoc]
    refine congrArg (fun l => d.tb.marks ++ markFrame (d.tb.time + 1) :: l) (congrArg (fun f => List.map f (List.range n)) ?_)
    refine funext fun k => congrArg markFrame ?_
    show d.tb.time + 1 + BitVec.ofNat 32 (k + 1) = d.tb.time + BitVec.ofNat 32 (k + 1 + 1)
    rw [BitVec.add_assoc]
    congr 1
    refine BitVec.eq_of_toNat_eq ?_
    have h1 : (1 : Word).toNat = 1 := rfl
    simp only [BitVec.toNat_add, BitVec.toNat_ofNat, h1]
    omega

/-- No MARK is lost where the Time Base passes several boundaries in one event. -/
theorem runSeconds_marks (limit : Nat) {d : Device} (h : oscillates d = true) : (runSeconds limit d).tb.marks
    = d.tb.marks ++ (List.range (secondsUntil limit d)).map fun k => markFrame (d.tb.time + BitVec.ofNat 32 (k + 1)) :=
  oscillatorBoundaries_marks _ h

/-! ### What the Time Base can change -/

theorem makeBoundary_quiet (instant : Nat) (d : Device) : Quiet [.tb, .owed] d (makeBoundary instant d) :=
  ⟨fun b hb => by cases b <;> first | rfl | exact absurd (by decide) hb, noticesOnly_of_cpi rfl⟩

theorem oscillatorBoundary_quiet (d : Device) : Quiet [.tb, .owed] d (oscillatorBoundary d) := by
  unfold oscillatorBoundary
  split
  · exact quiet_trans (quiet_mono (by decide) (advanceTo_quiet _ d)) (makeBoundary_quiet _ _)
  · exact quiet_refl _ d

theorem runSeconds_quiet (limit : Nat) (d : Device) : Quiet [.tb, .owed] d (runSeconds limit d) := by
  unfold runSeconds
  generalize secondsUntil limit d = n
  induction n generalizing d with
  | zero => exact quiet_refl _ d
  | succ n ih => exact quiet_trans (oscillatorBoundary_quiet d) (ih _)

theorem referenceLoss_quiet (d : Device) : Quiet [.tb, .owed, .fra] d (referenceLoss d) := by
  unfold referenceLoss
  split
  · exact quiet_refl _ d
  · split
    · have h (d : Device) : Quiet [.tb, .owed, .fra] d (setReferenceLost true (setReference .holdover 0 d)) :=
        quiet_trans (quiet_mono (bs := [.tb]) (by decide)
          (quiet_one (fun b hb => by cases b <;> first | rfl | exact absurd (by decide) hb) (by decide)))
          (quiet_mono (by decide) (setDeviceLevel_quiet _ _ _))
      dsimp only
      split
      · exact quiet_trans (quiet_trans (quiet_mono (by decide) (advanceTo_quiet _ d)) (h _))
          (quiet_mono (by decide) (makeBoundary_quiet _ _))
      · exact quiet_trans (quiet_mono (by decide) (advanceTo_quiet _ d)) (h _)
    · exact quiet_refl _ d

/-- What the Time Base has due before an instant changes the Time Base, the owed boundaries and the device record alone. -/
theorem runTimeBase_quiet (limit : Nat) (d : Device) : Quiet [.tb, .owed, .fra] d (runTimeBase limit d) := by
  unfold runTimeBase
  split
  · exact quiet_trans (quiet_mono (by decide) (runSeconds_quiet _ d))
      (quiet_trans (referenceLoss_quiet _) (quiet_mono (by decide) (runSeconds_quiet _ _)))
  · exact quiet_mono (by decide) (runSeconds_quiet _ d)

end Sys2Proof.Machine
end

