-- ==== Sys2Proof/Laws/Values.lean ====
section
/-! SUPPORT. What the functions that compute a stored or recorded value answer: the settings (R6, R9), a snapshot (R163, R164)
and the meters that rise at grading (R167). -/

namespace Sys2Proof.Machine

/-! ### Settings (R6, R9) -/

theorem clampNat_stored {low high : Nat} (h : low ≤ high) (v : Nat) : Clamped low high v (clampNat low high v) := by
  simp only [Clamped, clampNat]
  omega

theorem clampLevel_stored (v : Int) : Clamped (-400) 100 v (clampLevel v) := by
  simp only [Clamped, clampLevel, clampInt]
  omega

/-- Division that truncates, as two inequalities for each sign. -/
theorem tdiv_five (x : Int) :
    (0 ≤ x → x.tdiv 5 * 5 ≤ x ∧ x < x.tdiv 5 * 5 + 5) ∧ (x ≤ 0 → x ≤ x.tdiv 5 * 5 ∧ x.tdiv 5 * 5 < x + 5) := by
  refine ⟨fun h => ?_, fun h => ?_⟩
  · rw [Int.tdiv_eq_ediv_of_nonneg h]
    omega
  · obtain ⟨y, rfl⟩ : ∃ y, x = -y := ⟨-x, (Int.neg_neg x).symm⟩
    rw [Int.neg_tdiv, Int.tdiv_eq_ediv_of_nonneg (by omega)]
    omega

theorem clampOffset_stored (v : Int) : OffsetStored v (clampOffset v) := by
  have := tdiv_five (clampInt (-75) 75 v)
  simp only [OffsetStored, clampOffset, clampInt] at this ⊢
  generalize (max (-75) (min 75 v)).tdiv 5 = q at *
  omega

theorem clampProfile_stored (warnLow alarmLow alarmHigh : Int) (h f : Nat) :
    ProfileStored warnLow alarmLow alarmHigh h f (clampProfile warnLow alarmLow alarmHigh h f) :=
  ⟨clampLevel_stored _, clampLevel_stored _, clampLevel_stored _, clampNat_stored (by decide) h, clampNat_stored (by decide) f⟩

theorem clampTariff_stored (rb fo co cd mmin us : Nat) :
    TariffStored rb fo co cd mmin us (clampTariff rb fo co cd mmin us) :=
  ⟨clampNat_stored (by decide) rb, clampNat_stored (by decide) fo, clampNat_stored (by decide) co,
    clampNat_stored (by decide) cd, clampNat_stored (by decide) mmin, clampNat_stored (by decide) us⟩

theorem clampDefaults_stored (v : Nat → Nat) :
    DefaultsStored v (clampDefaults (v 0) (v 1) (v 2) (v 3) (v 4) (v 5) (v 6)) := by
  refine ⟨?_, ⟨fun h => if_pos h, fun h => ?_⟩, clampNat_stored (by decide) _, clampNat_stored (by decide) _,
    clampNat_stored (by decide) _, clampNat_stored (by decide) _, clampNat_stored (by decide) _⟩
  · simp only [clampDefaults, clampHoldOff]
    omega
  · have : clampWtr (v 1) = clampNat 30 900 (v 1) := if_neg (by omega)
    simp only [clampDefaults, this]
    exact clampNat_stored (by decide) _

theorem allowedAction_stored (i : Fin 22) (a : Action) : ActionStored i a (allowedAction i a) := by
  have key : ∀ i : Fin 22, ((allowedAction i .protect = .protect ∧ i.val ∈ [0, 2, 3, 4])
        ∨ (allowedAction i .protect = .notify ∧ i.val ∉ [0, 2, 3, 4]))
      ∧ ((allowedAction i .quarantine = .quarantine ∧ i.val ∈ [0, 2, 7])
        ∨ (allowedAction i .quarantine = .notify ∧ i.val ∉ [0, 2, 7])) := by decide
  obtain ⟨hp, hq⟩ := key i
  cases a with
  | notify => exact ⟨fun _ => rfl, fun h => absurd (.inl rfl) h⟩
  | protect => obtain ⟨h1, h2⟩ | ⟨h1, h2⟩ := hp <;> simp only [ActionStored, h1, h2] <;> simp
  | quarantine => obtain ⟨h1, h2⟩ | ⟨h1, h2⟩ := hq <;> simp only [ActionStored, h1, h2] <;> simp

/-! ### Snapshots (R163, R164) -/

theorem deliveredLane_iff (d : Device) (m : MeterRecord) (l : Lane) :
    deliveredLane d m = some l ↔ ∃ f, m.node = some f ∧ (node d f).confirmed = .lane l := by
  unfold deliveredLane
  cases m.node with
  | none => simp
  | some f => cases hc : (node d f).confirmed <;> simp [hc]

theorem snapshot_records (d : Device) (n : Word) (b : Booking) (m : MeterRecord) :
    SnapshotOf d n b m (snapshot d n b m) := by
  refine ⟨rfl, rfl, fun l => deliveredLane_iff d m l, List.length_map _, fun k p v hp hv => ?_, fun h => ?_, fun l h => ?_⟩
  · have hv' : (b.recipients.map (recipientView d m))[k]? = some v := hv
    rw [List.getElem?_map, hp] at hv'
    cases hv'
    refine ⟨?_, rfl⟩
    unfold recipientView
    cases m.node <;> simp
  · have h' : deliveredLane d m = none := h
    simp only [snapshot, h', Option.map_none, Option.bind_none, and_self]
  · have h' : deliveredLane d m = some l := h
    refine ⟨by simp only [snapshot, h', Option.map_some]; rfl, fun c hc hn => ?_, fun hc => ?_⟩
    · simp only [snapshot, h', Option.bind_some, closedGrade, hc, Option.filter_some, hn, decide_true, if_true, Option.map_some]
    · simp only [snapshot, h', Option.bind_some, closedGrade]
      cases hl : (line d (trunkOf l)).lastClosed with
      | none => rfl
      | some c => simp only [Option.filter_some, hc c hl, decide_false, Bool.false_eq_true, if_false, Option.map_none]

/-! ### The meters that rise at grading (R167) -/

/-- The availability state books a grade, and leaves what grading counts. -/
theorem takeGrade_leaves (g : Grade) (r : RecipientMeter) : (takeGrade g r).meters.metered = r.meters.metered
    ∧ (takeGrade g r).meters.overrun = r.meters.overrun ∧ (takeGrade g r).meters.unmonitored = r.meters.unmonitored
    ∧ (takeGrade g r).connectedSeen = r.connectedSeen ∧ (takeGrade g r).last = r.last := by
  unfold takeGrade takeAvailable takeUnavailable
  cases r.availability <;> cases g <;> dsimp only <;>
    first
    | exact ⟨rfl, rfl, rfl, rfl, rfl⟩
    | (split <;> exact ⟨rfl, rfl, rfl, rfl, rfl⟩)

end Sys2Proof.Machine
end

