-- ==== Sys2Proof/Tests/Slice0.lean ====
section
/-! SUPPORT. The model's own tests: the ill-formed terms that WellFormed refuses, single steps of the manual's worked
examples, and for every statement that has hypotheses a concrete state and operands that meet them. Expected values are the
manual's tables' or are worked by hand from its rules; each test names its source. -/

namespace Sys2Proof.Tests

set_option Elab.async false

open Sys2Proof Sys2Proof.Machine

/-! ### Small states -/

/-- The device after an event; a stop leaves it as it was. -/
def after (c : Instr) (d : Device) : Device :=
  match exec c ⟨d, []⟩ with
  | .next s => s.dev
  | .fault _ => d
  | .refused _ => d

/-- Port `p` has posted a code with the given parameters. -/
def post (p : PortId) (code : Word) (fields : List Field) (d : Device) : Device :=
  updWindow p (fun w => { w with command := .posted code, params := Memory.ofBytes windowBlank 0 (pack 0 fields) }) d

/-- The image of the tests: trunks 4 to 6 serve venue 2, every port is bookable, every port holds every role. -/
def testImage : Image :=
  { factoryImage with
    venueMap := (((Vector.replicate 16 none).set 4 (some 2)).set 5 (some 2)).set 6 (some 2)
    portMap := Vector.replicate 32 ⟨101#16, true⟩
    roles := Vector.replicate 4 ⟨true, true, true, true⟩ }

/-- An operating device, at network time `t`, with every lane healthy, every node FREE and every port on PARK. -/
def operating (t : Word) : Device :=
  { resetDevice [] with
    tb := { resetTb with time := t, valid := true }
    csc := { resetCsc [] with image := testImage }
    cpi := { resetCpi with status := .running, phase := .operating }
    psu := { resetPsu with failed := Vector.replicate 128 false }
    fcu :=
      { resetFcu with
        nodes := Vector.replicate 48 { resetNode with state := .free, confirmed := .none }
        ports := Vector.replicate 32 { resetPort with confirmed := .park } }
    lmn :=
      { resetLmn with
        monitoring := true, opened := true
        lines := Vector.replicate 16 { resetLine with los := false, alarmSeen := true, cleanTimer := some 256000 } }
    fra := { resetFra with records := Vector.replicate 49 resetRecord } }

/-- A booking for venue 2 on a working and a protection lane. -/
def booking (state : BookingState) (working : Lane) (protection : Option Lane) (recipients : List HandoffPort)
    (start plannedEnd lead allowance : Nat) : Booking where
  state := state
  matchRef := 7#32
  venue := 2
  workingSpec := .auto
  protectSpec := .auto
  working := working
  protection := protection
  recipients := recipients
  start := start
  plannedEnd := plannedEnd
  lead := lead
  allowance := allowance
  guard := 60
  priority := 1
  tariffClass := 4
  tariff := ⟨850, 150, 200, 50, 30, 30⟩
  holdOff := none
  wtr := none
  submitter := .a
  node := none
  closeTime := none
  nodeWait := false
  overrunWarned := false
  lateCancel := false
  endedEarly := false
  charges := []

/-- A slot holds a booking under a generation. -/
def hold (i : SlotId) (generation : Byte) (b : Booking) (d : Device) : Device := updSlot i (fun _ => ⟨generation, some b⟩) d

/-- A selector of the booking in slot `i`. -/
def selector (h : Handle) (state : SelectorState) (working : Lane) (protection : Option Lane) (timer : Option SelectorTimer) :
    Selector := ⟨h, state, working, protection, timer, false⟩

/-- The code of port `p`'s error block and its field, and its command word. -/
def answer (p : PortId) (d : Device) : CommandWord × Option Result × Option Nat :=
  ((window d p).command, (window d p).result, (window d p).field)

/-- The first bytes of port `p`'s response area. -/
def response (p : PortId) (n : Nat) (d : Device) : List Byte := Memory.slice windowBlank (window d p).response 0 n

/-! ### WellFormed -/

theorem test_wf_refuses_cut_past_image : wellFormed (.powerOn (.written 427)) = false := by decide
theorem test_wf_refuses_short_remainder : wellFormed (.resetLine (.left [])) = false := by decide
theorem test_wf_refuses_short_read_back : wellFormed (.configSaveEnd (.differs [])) = false := by decide
theorem test_wf_refuses_write_past_image : wellFormed (.restartWriteEnd (.writeRefused 427)) = false := by decide
theorem test_wf_refuses_timeout_past_image : wellFormed (.configSaveEnd (.timedOut (.written 427))) = false := by decide
theorem test_wf_refuses_alarm_trunk : wellFormed (.alarmFrame 16#8 false 0#8 0#8) = false := by decide
theorem test_wf_refuses_second_trunk :
    wellFormed (.secondFrame 16#8 0#8 (Vector.replicate 8 ⟨0#16, false, false⟩)) = false := by decide
theorem test_wf_refuses_power_trunk : wellFormed (.powerFrame 16#8 0#16 true) = false := by decide
theorem test_wf_refuses_port : wellFormed (.portstatFrame 32#8 false true) = false := by decide
theorem test_wf_refuses_discard_of_good_unit :
    wellFormed (.lslFrameDiscard (lslUnit (.alarm 0 false 0#8 0#8))) = false := by decide +kernel
theorem test_wf_refuses_admitted_reply : wellFormed (.folReplyNotAdmitted [0x20#8, 0#8, 0#8, 0#8]) = false := by decide
theorem test_wf_refuses_outside_window : wellFormed (.windowWrite .a 2048 0#32) = false := by decide
theorem test_wf_refuses_half_word : wellFormed (.windowWrite .a 2 0#32) = false := by decide
theorem test_wf_refuses_writable_word : wellFormed (.windowWrite .a 0x018 0#32) = false := by decide
theorem test_wf_accepts_last_word : wellFormed (.windowWrite .a 0x7FC 0#32) = true := by decide

/-! ### Formats (R10, R201, R204) -/

/-- The sizes of R201: eight sections, the restart number and the CRC make 426 bytes. -/
theorem test_image_size : (imageBytes factoryImage 1#16).length = 426 := by decide +kernel

/-- R10's generator, initial value and order, on the nine digits: the published check value of that CRC. -/
theorem test_crc :
    crc16 [0x31#8, 0x32#8, 0x33#8, 0x34#8, 0x35#8, 0x36#8, 0x37#8, 0x38#8, 0x39#8] = 0x29B1#16 := by decide +kernel

/-- R204: a POWER unit of the wrong length, and one with a broken CRC, are no frames. -/
theorem test_bad_units :
    lslFrame (withCrc [3#8, 1#8, 0#8, 0#8]) = none ∧ lslFrame [4#8, 1#8, 1#8, 0#8, 0#8] = none := by decide +kernel

/-- 05's example: NODE_SELECT(20, 33) with tag 0x41. -/
theorem test_order_unit : orderUnit (.nodeSelect 20 33) 0x41#8 = [0x11#8, 0x41#8, 20#8, 33#8] := by decide

/-! ### Start-up (R17, R18, R198; 01's example of a blank store) -/

def loading : Device := after (.selfCheckEnd true) (resetDevice [])

def restartWriting : Device := after (.storeLoadEnd true) loading

def clearing : Device := after (.restartWriteEnd .verified) restartWriting

theorem test_self_check_fails : (after (.selfCheckEnd false) (resetDevice [])).cpi.status = .halted := by decide +kernel

theorem test_blank_store : restartWriting.csc.restart = 1#16 ∧ restartWriting.csc.unsaved = false
    ∧ hasSource (record restartWriting deviceRecord).present srcStoreFault = true
    ∧ restartWriting.cpi.status = .starting := by decide +kernel

theorem test_restart_write : clearing.fcu.sent = [0x10#8, 0#8, 0#8, 0#8] ∧ clearing.lmn.monitoring = true
    ∧ storedRestart clearing.csc.flash = 1#16 := by decide +kernel

theorem test_start_up_ends : (after (.fabricAck 0#8) clearing).cpi.status = .defaults := by decide +kernel

/-- R98, R198 step 5: CLEAR_ALL refused, given up or abandoned ends start-up too. -/
theorem test_start_up_ends_unanswered : (after (.fabricNak 0#8 3#8) clearing).cpi.status = .defaults
    ∧ (after .orderTimerExpiry (after .orderTimerExpiry clearing)).cpi.status = .defaults
    ∧ (after .resetNotice clearing).cpi.status = .defaults := by decide +kernel

/-! ### Network time (02's example of reference loss and relock) -/

def locked : Device :=
  { operating 5000#32 with tb := { resetTb with time := 5000#32, valid := true, ref := .locked, lastPulse := some 0 } }

def lost : Device := after .referenceLoss locked

theorem test_reference_loss : lost.tb.time = 5001#32 ∧ lost.tb.ref = .holdover ∧ lost.tb.clock = 1200
    ∧ lost.tb.marks.map (·.take 2) = [[5#8, 137#8]] ∧ lost.tb.refLost = true := by decide +kernel

theorem test_oscillator_boundary : (after .boundary lost).tb.time = 5002#32 ∧ (after .boundary lost).tb.clock = 2200
    ∧ (after .boundary lost).tb.marks.map (·.take 2) = [[5#8, 137#8], [5#8, 138#8]] := by decide +kernel

/-- The third spaced pulse at 7,651 ms, with E 451. -/
def relocking : Device :=
  { lost with tb := { lost.tb with time := 5007#32, clock := 7651, elapsed := 451, ref := .relocking, spaced := 3
                                   lastPulse := some 7651 } }

theorem test_lock_pulse : (after (.referencePulse 1000) relocking).tb.time = 5008#32
    ∧ (after (.referencePulse 1000) relocking).tb.ref = .locked
    ∧ (after (.referencePulse 1000) relocking).tb.refLost = false := by decide +kernel

/-- A spacing of 990 ms starts the count again (R24). -/
theorem test_short_spacing :
    (after (.referencePulse 990) { relocking with tb := { relocking.tb with spaced := 1 } }).tb.spaced = 0 := by
  decide +kernel

/-- R26: a pulse 1,500 ms on finds the loss of 1,200 ms taken: its boundary, its onset, and the pulse as a first pulse (R23). -/
theorem test_pulse_after_loss : (after (.referencePulse 1500) locked).tb.time = 5001#32
    ∧ (after (.referencePulse 1500) locked).tb.ref = .relocking ∧ (after (.referencePulse 1500) locked).tb.elapsed = 300
    ∧ (record (after (.referencePulse 1500) locked) deviceRecord).latched = srcReferenceLost := by decide +kernel

/-- 02's example: the pulse at 4,650 follows the boundaries at 2,200, 3,200 and 4,200, each with its MARK (R28). -/
theorem test_pulse_after_boundaries : (after (.referencePulse 3450) lost).tb.time = 5004#32
    ∧ (after (.referencePulse 3450) lost).tb.elapsed = 450
    ∧ (after (.referencePulse 3450) lost).owed.bkc = [5001#32, 5002#32, 5003#32, 5004#32]
    ∧ (after (.referencePulse 3450) lost).tb.marks.map (·.take 2)
      = [[5#8, 137#8], [5#8, 138#8], [5#8, 139#8], [5#8, 140#8]] := by decide +kernel

/-- R25: a third spaced pulse that falls on E = 1,000 follows that boundary, and the lock pulse 1,000 ms on makes the next. -/
def thirdPulse : Device :=
  after (.referencePulse 1000) { relocking with tb := { relocking.tb with spaced := 2, elapsed := 0 } }

theorem test_third_pulse_follows_boundary : thirdPulse.tb.time = 5008#32 ∧ thirdPulse.tb.elapsed = 0 ∧ thirdPulse.tb.spaced = 3
    ∧ (after (.referencePulse 1000) thirdPulse).tb.time = 5009#32
    ∧ (after (.referencePulse 1000) thirdPulse).tb.ref = .locked := by decide +kernel

/-- R30: the flag falls at the wrap. -/
theorem test_time_wraps : (after .boundary (operating 0xFFFFFFFF#32)).tb.valid = false := by decide +kernel

theorem test_time_set : answer .a (after .timeSet (post .a 0x107#32 [u4 0xEFFFFFFF] (operating 1#32))) = (.done, some .done, none)
    ∧ (after .timeSet (post .a 0x107#32 [u4 0xEFFFFFFF] (operating 1#32))).tb.time = 0xEFFFFFFF#32 := by decide +kernel

theorem test_time_set_refused :
    answer .a (after .timeSet (post .a 0x107#32 [u4 0xF0000000] (operating 1#32)))
      = (.failed, some .badParameter, some 0) := by decide +kernel

/-! ### Booking admission (03's example of a busy venue) -/

def busyVenue : Device :=
  hold 0 3#8 (booking .pending 48 (some 40) [3] 503600 510800 600 1800)
    (hold 1 0#8 (booking .pending 32 none [9] 504000 511200 300 0)
      (updSlot 2 (fun _ => ⟨5#8, none⟩)
        (hold 3 2#8 (booking .pending 0 none [20] 504300 508000 300 900)
          (hold 4 1#8 (booking .unbilled 33 (some 41) [12] 496000 503200 600 3600) (operating 500000#32)))))

def submission (recipients : List Nat) (start plannedEnd allowance : Nat) : List Field :=
  [u4 7, u1 2, u2 256, u2 256] ++ listField (recipients.map u1) recipients.length
    ++ [u4 start, u4 plannedEnd, u2 600, u2 allowance, u1 2, u1 4] ++ optField 2 none ++ optField 2 none

def admitted : Device := after .bookSubmit (post .a 0x101#32 (submission [7, 12] 505800 513000 3600) busyVenue)

/-- Slot 2, generation 5, lanes 33 and 40, interval 505,200 to 516,660, guard 60. -/
theorem test_submit : response .a 14 admitted
    = [2#8, 5#8, 33#8, 1#8, 40#8, 0#8, 0#8, 0#8, 0x00#8, 0x07#8, 0xB5#8, 0x70#8, 0x00#8, 0x07#8] := by decide +kernel

/-- The second submission of the example: port 7 is a recipient of slot 2. -/
theorem test_submit_port_conflict :
    answer .a (after .bookSubmit (post .a 0x101#32 (submission [7] 512400 519600 0) admitted))
      = (.failed, some .portConflict, some 11) := by decide +kernel

/-- R53: a PENDING booking that is due is not amended. -/
theorem test_amend_due :
    answer .b (after .bookAmend (post .b 0x102#32 [u2 0x0003] { busyVenue with
      tb := { busyVenue.tb with time := 503000#32 } })) = (.failed, some .wrongState, some 0) := by decide +kernel

theorem test_cancel_pending :
    (after .bookCancel (post .b 0x104#32 [u2 0x0003] busyVenue)).bkc.slots.get 0 = ⟨4#8, none⟩ := by decide +kernel

/-! ### Booking lifecycle (04's example of a match with extra time) -/

def semiFinal : Booking := booking .pending 33 (some 40) [5, 6] 600000 606300 300 1800

def armedMatch : Device :=
  after .bkcBoundary { hold 7 2#8 semiFinal (operating 599700#32) with owed := ⟨[599700#32], [], []⟩ }

theorem test_arming : (bookingAt armedMatch 7).map (fun b => (b.state, b.node)) = some (.armed, some 0)
    ∧ armedMatch.fcu.sent = [0x11#8, 0#8, 0#8, 33#8] := by decide +kernel

/-- R104, R86: the working lane 33 is failed at arming, and port 5 carries a TEST claim. -/
def armedOnProtection : Device :=
  let d := setClaims 5 none true { hold 7 2#8 semiFinal (operating 599700#32) with owed := ⟨[599700#32], [], []⟩ }
  after .bkcBoundary { d with psu := { d.psu with failed := (Vector.replicate 128 false).set 33 true } }

theorem test_arming_on_protection :
    (selectorAt armedOnProtection 7).map (fun x => (x.state, x.timer)) = some (.onProtection, none)
    ∧ lane armedOnProtection 40 = ⟨some ⟨7, 2#8⟩, []⟩ ∧ (port armedOnProtection 5).test = false
    ∧ (record armedOnProtection (portRecord 5)).latched = srcTestPreempted
    ∧ (armedOnProtection.svm.records.get 7).bind (fun m => m.node) = some 0 := by decide +kernel

/-- OVERRUN, with the warning given at 607,980. -/
def overrunMatch (allowance : Nat) (now : Word) : Device :=
  hold 11 4#8 (booking .pending 34 none [5] 609800 617000 300 0)
    (hold 7 2#8 { semiFinal with state := .overrun, allowance := allowance, overrunWarned := true } (operating now))

theorem test_extend_conflict :
    answer .b (after .bookExtend (post .b 0x105#32 [u2 0x0702, u2 3600] (overrunMatch 1800 607990#32)))
        = (.failed, some .portConflict, some 11)
      ∧ response .b 2 (after .bookExtend (post .b 0x105#32 [u2 0x0702, u2 3600] (overrunMatch 1800 607990#32)))
        = [11#8, 4#8] := by decide +kernel

theorem test_extend : (bookingAt (after .bookExtend (post .b 0x105#32 [u2 0x0702, u2 3000] (overrunMatch 1800 608000#32))) 7).map
    (fun b => (b.allowance, b.overrunWarned)) = some (3000, false) := by decide +kernel

/-- R78's order: the generation, then the state. -/
theorem test_query : response .b 2 (after .bookQuery (post .b 0x106#32 [u2 0x0702] (overrunMatch 1800 608000#32)))
    = [2#8, 4#8] := by decide +kernel

/-! ### Fabric control (05's example of one feed) -/

/-- Node 20 ordered to lane 33 for slot 2, ports 7 and 12 claimed. -/
def settingUp : Device :=
  let d := hold 2 5#8 { booking .armed 33 (some 40) [7, 12] 505800 513000 600 3600 with node := some 20 } (operating 505200#32)
  let d := updNode 20 (fun _ => ⟨.owned, some ⟨2, 5#8⟩, some 33, .none, false, false, none⟩) d
  let d := setClaims 7 (some ⟨⟨2, 5#8⟩, 20⟩) false d
  let d := setClaims 12 (some ⟨⟨2, 5#8⟩, 20⟩) false (confirmPort 12 .test d)
  { d with fcu := { d.fcu with inFlight := some ⟨.nodeSelect 20 33, 0x41#8, 1, 40⟩, nextTag := 0x42#8 } }

def selected : Device := after (.fabricAck 0x41#8) settingUp

def joined : Device := after (.fabricAck 0x42#8) selected

theorem test_ack : (node selected 20).established = true ∧ selected.fcu.sent = [0x13#8, 0x42#8, 7#8, 20#8] := by
  decide +kernel

theorem test_nak : (port (after (.fabricNak 0x43#8 3#8) joined) 12).stuck = true
    ∧ (port (after (.fabricNak 0x43#8 3#8) joined) 12).confirmed = .test
    ∧ (record (after (.fabricNak 0x43#8 3#8) joined) (portRecord 12)).latched = srcJoinFailed := by decide +kernel

theorem test_stray_ack : (record (after (.fabricAck 0x44#8) joined) deviceRecord).latched = srcFabricProtocol := by
  decide +kernel

theorem test_bad_reply :
    (record (after (.folReplyNotAdmitted [0x23#8, 0#8, 0#8, 0#8]) joined) deviceRecord).latched = srcFabricProtocol := by
  decide +kernel

theorem test_resend : ((after .orderTimerExpiry settingUp).fcu.inFlight).map (fun o => (o.tag, o.sends, o.expiry))
    = some (0x41#8, 2, 80) := by decide +kernel

theorem test_give_up : (node (after .orderTimerExpiry (after .orderTimerExpiry settingUp)) 20).confirmed = .unknown
    ∧ (node (after .orderTimerExpiry (after .orderTimerExpiry settingUp)) 20).stuck = true := by decide +kernel

theorem test_reset_notice : (port (after .resetNotice joined) 7).confirmed = .park
    ∧ (node (after .resetNotice joined) 20).confirmed = .none := by decide +kernel

theorem test_port_test : (port (after .portTest (post .c 0x301#32 [u1 31] (operating 9#32))) 31).test = true
    ∧ (after .portTest (post .c 0x301#32 [u1 31] (operating 9#32))).fcu.sent = [0x15#8, 0#8, 31#8, 0#8] := by decide +kernel

theorem test_port_test_refused :
    answer .c (after .portTest (post .c 0x301#32 [u1 7] settingUp)) = (.failed, some .portConflict, some 0) := by
  decide +kernel

theorem test_port_untest :
    (port (after .portUntest (post .c 0x302#32 [u1 31] (setClaims 31 none true (operating 9#32)))) 31).test = false := by
  decide +kernel

theorem test_resync : (node (after .fabricResync (post .c 0x303#32 [] (operating 9#32))) 47).state = .draining := by
  decide +kernel

/-! ### Protection switching (R106, R109, R110, R114 to R116) -/

/-- Slot 21 of 06's example: lanes 72 and 88, hold-off 50 ms. -/
def protectedBooking (state : SelectorState) (timer : Option SelectorTimer) : Device :=
  setSelector 21 (some (selector ⟨21, 6#8⟩ state 72 (some 88) timer))
    (hold 21 6#8 (booking .live 72 (some 88) [17, 18] 797400 803700 300 0) (operating 801200#32))

theorem test_hold_off :
    (selectorAt (after (.holdOffExpiry 21) (protectedBooking .holdOff (some ⟨.holdOff, 50⟩))) 21).map (fun x => x.state)
      = some .onProtection := by decide +kernel

theorem test_wait_to_restore :
    (selectorAt (after (.waitToRestoreExpiry 21) (protectedBooking .waitRestore (some ⟨.waitToRestore, 9⟩))) 21).map
      (fun x => x.state) = some .onWorking := by decide +kernel

theorem test_return_timer :
    (selectorAt (after (.returnTimerExpiry 21) (protectedBooking .onProtection (some ⟨.returnTimer, 9⟩))) 21).map
      (fun x => x.state) = some .onWorking := by decide +kernel

/-- R118: behind its own priority, ahead of a lower one. -/
theorem test_join_waiting : insertWaiter ⟨⟨21, 6#8⟩, 1, 9#32⟩
      [⟨⟨30, 0#8⟩, 2, 9#32⟩, ⟨⟨31, 0#8⟩, 1, 9#32⟩, ⟨⟨32, 0#8⟩, 0, 9#32⟩]
    = [⟨⟨30, 0#8⟩, 2, 9#32⟩, ⟨⟨31, 0#8⟩, 1, 9#32⟩, ⟨⟨21, 6#8⟩, 1, 9#32⟩, ⟨⟨32, 0#8⟩, 0, 9#32⟩] := by decide

/-- Slot 22 of 06's example waits for lane 88 with its working lane 80 failed; slot 21 holds the lane. -/
def contested (state : SelectorState) (timer : Option SelectorTimer) : Device :=
  let d := setSelector 22 (some (selector ⟨22, 1#8⟩ .waiting 80 (some 88) none)) (protectedBooking state timer)
  let d := updLane 88 (fun _ => ⟨some ⟨21, 6#8⟩, [⟨⟨22, 1#8⟩, 1, 801199#32⟩]⟩) d
  { d with psu := { d.psu with failed := (Vector.replicate 128 false).set 80 true } }

/-- R119: the lane that slot 21 releases goes to slot 22. -/
theorem test_grant :
    (selectorAt (after (.waitToRestoreExpiry 21) (contested .waitRestore (some ⟨.waitToRestore, 9⟩))) 22).map
        (fun x => x.state) = some .onProtection
      ∧ lane (after (.waitToRestoreExpiry 21) (contested .waitRestore (some ⟨.waitToRestore, 9⟩))) 88
        = ⟨some ⟨22, 1#8⟩, []⟩ := by decide +kernel

/-- Frame loss on lane 0 of a trunk, in its line record, its fault record and the PSU's view. -/
def lossy (t : Trunk) (d : Device) : Device :=
  let d := updLine t (fun x => { x with frameLoss := 1#8 }) d
  let d := updRecord (trunkRecord t) (fun x => { x with present := srcFrameLoss })
    (updTrunkFault t (fun f => { f with frameLoss := 1#8 }) d)
  { d with psu := { d.psu with failed := d.psu.failed.set (8 * t.val) true } }

/-- Slot `i` runs on its working lane, protected by lane 88 with a hold-off of 0. -/
def protectedBy88 (i : SlotId) (generation : Byte) (state : SelectorState) (working : Lane) (d : Device) : Device :=
  setSelector i (some (selector ⟨i, generation⟩ state working (some 88) none))
    (hold i generation { booking .live working (some 88) [17] 797400 803700 300 0 with holdOff := some 0 } d)

/-- Slots 21 and 22 share lane 88, both working lanes failed: slot 21 holds it, and slot 22 waits. -/
def sharing : Device :=
  let d := protectedBy88 21 6#8 .onProtection 72 (operating 801200#32)
  let d := protectedBy88 22 1#8 .waiting 80 d
  lossy 10 (lossy 9 (updLane 88 (fun _ => ⟨some ⟨21, 6#8⟩, [⟨⟨22, 1#8⟩, 1, 801200#32⟩]⟩) d))

/-- R105, R106, R118: with the lane held, slot 22's working failure has it wait. -/
theorem test_failure_waits :
    (let d := protectedBy88 22 1#8 .onWorking 80 (lossy 9 (protectedBy88 21 6#8 .onProtection 72 (operating 801200#32)))
     let d := after (.alarmFrame 10#8 false 1#8 0#8) (updLane 88 (fun _ => ⟨some ⟨21, 6#8⟩, []⟩) d)
     ((lane d 88).waiting, (selectorAt d 22).map fun x => x.state))
      = ([⟨⟨22, 1#8⟩, 1, 801200#32⟩], some .waiting) := by decide +kernel

/-- Lane 88 has failed, and slot 21 is back on its working lane; slot 22 still waits. -/
def freed : Device :=
  let d := protectedBy88 22 1#8 .waiting 80 (protectedBy88 21 6#8 .onWorking 72 (operating 801200#32))
  lossy 11 (lossy 10 (updLane 88 (fun _ => ⟨none, [⟨⟨22, 1#8⟩, 1, 801200#32⟩]⟩) d))

/-- R119: the recovery of the lane grants it to slot 22. -/
def granted : Device := after (.alarmFrame 11#8 false 0#8 0#8) freed

theorem test_recovery_grants : lane granted 88 = ⟨some ⟨22, 1#8⟩, []⟩ ∧ (window granted .a).sticky = protectionNotice
    ∧ (selectorAt granted 22).map (fun x => x.state) = some .onProtection := by decide +kernel

/-- R109: slot 21 stays on the failed lane with BOTH_FAILED. -/
theorem test_both_failed :
    (selectorAt (after (.alarmFrame 11#8 false 1#8 0#8) sharing) 21).map (fun x => (x.state, x.bothFailed))
      = some (.onProtection, true) := by decide +kernel

/-- R118: of the joiners of one event, slot 22 stands ahead of slot 23 whichever step of R121 brought it, behind slot 30 that
stood there before. -/
theorem test_joiners_in_slot_order :
    (inSlotOrder [⟨⟨30, 0#8⟩, 1, 8#32⟩] [⟨⟨30, 0#8⟩, 1, 8#32⟩, ⟨⟨23, 0#8⟩, 1, 9#32⟩, ⟨⟨22, 1#8⟩, 1, 9#32⟩]).map
      (fun w => w.handle.slot) = [30, 22, 23] := by decide +kernel

/-- Lane 88 recovers in the event in which slot 23's working lane 81 fails: slot 23 joins at step 2 and slot 22, which had
BOTH_FAILED, at step 3. -/
def joinTogether : Device :=
  let d := protectedBy88 23 0#8 .onWorking 81 (protectedBy88 21 6#8 .onProtection 72 (operating 801200#32))
  let d := setSelector 22 (some { selector ⟨22, 1#8⟩ .onWorking 80 (some 88) none with bothFailed := true })
    (protectedBy88 22 1#8 .onWorking 80 d)
  let d := updLane 88 (fun _ => ⟨some ⟨21, 6#8⟩, []⟩) d
  let failed := ((Vector.replicate 128 false).set 72 true).set 80 true
  laneEvents (failed.set 81 true) (Vector.replicate 16 false) { d with psu := { d.psu with failed := failed.set 88 true } }

theorem test_join_of_two_steps : (lane joinTogether 88).waiting.map (fun w => w.handle.slot) = [22, 23] := by decide +kernel

/-- R201: a duration is two bytes; 299,001 ms of a wait-to-restore are shown as 300 s, 50 ms of a hold-off as 50. -/
theorem test_time_left :
    selectorFields (operating 9#32) (selector ⟨21, 6#8⟩ .waitRestore 72 (some 88) (some ⟨.waitToRestore, 299001⟩))
        = [u1 5, u1 88, u1 0, u1 2, u2 300]
      ∧ selectorFields (operating 9#32) (selector ⟨21, 6#8⟩ .holdOff 72 (some 88) (some ⟨.holdOff, 50⟩))
        = [u1 2, u1 72, u1 0, u1 1, u2 50] := by decide +kernel

theorem test_force :
    (selectorAt (after .protForce (post .c 0x304#32 [u2 0x1506] (protectedBooking .onWorking none))) 21).map (fun x => x.state)
      = some .forcedProtection := by decide +kernel

theorem test_lock :
    (selectorAt (after .protLock (post .c 0x305#32 [u2 0x1506] (protectedBooking .onProtection none))) 21).map (fun x => x.state)
      = some .lockedWorking := by decide +kernel

theorem test_clear :
    (selectorAt (after .protClear (post .c 0x306#32 [u2 0x1506] (protectedBooking .lockedWorking none))) 21).map
      (fun x => x.state) = some .onWorking := by decide +kernel

/-! ### Line monitoring (07's examples) -/

/-- The third counting report of the filter example: raw −183, offset −5, run 2. -/
def filtering : Device :=
  updLine 6 (fun x => { x with lowWarn := ⟨false, 2⟩ })
    (setImage { testImage with calibration := testImage.calibration.set 6 (-5) } (operating 9#32))

theorem test_power_onset : (line (after (.powerFrame 6#8 (BitVec.ofInt 16 (-183)) true) filtering) 6).lowWarn = ⟨true, 0⟩
    ∧ (line (after (.powerFrame 6#8 (BitVec.ofInt 16 (-183)) true) filtering) 6).calibrated = some (-188) := by
  decide +kernel

theorem test_power_run_broken :
    (line (after (.powerFrame 6#8 (BitVec.ofInt 16 (-172)) true) filtering) 6).lowWarn = ⟨false, 0⟩ := by decide +kernel

/-- Trunk 9 awaits second 800,000. -/
def awaiting : Device :=
  updLine 9 (fun x => { x with awaited := some ⟨800000#32, false, 0#8⟩, lateCount := 12 }) (operating 800001#32)

def cleanLanes : Vector LaneReport 8 := Vector.replicate 8 ⟨0#16, false, false⟩

theorem test_second :
    (line (after (.secondFrame 9#8 0#8 ((cleanLanes.set 2 ⟨37#16, false, false⟩).set 5 ⟨2611#16, false, false⟩)) awaiting) 9).lastClosed
      = some ⟨800000#32, #v[.clean, .clean, .errored, .clean, .clean, .severe, .clean, .clean], false⟩ := by decide +kernel

theorem test_second_late : (line (after (.secondFrame 9#8 1#8 cleanLanes) awaiting) 9).lateCount = 13 := by decide +kernel

/-- The second that closes without its report, with frame loss on lane 4 at its end. -/
def silent : Device :=
  { updLine 9 (fun x => { x with awaited := some ⟨800002#32, false, 0x10#8⟩ }) (operating 800004#32) with
    owed := ⟨[], [800004#32], []⟩ }

theorem test_missing_second : (line (after .lmnBoundary silent) 9).lastClosed
      = some ⟨800002#32, #v[.clean, .clean, .clean, .clean, .severe, .clean, .clean, .clean], true⟩
    ∧ hasSource (record (after .lmnBoundary silent) 9).present srcReportGap = true := by decide +kernel

/-- R127: a lane set that touches no signal-fail reaches the trunk's record. -/
theorem test_alarm : (record (after (.alarmFrame 9#8 false 0#8 0x81#8) (operating 9#32)) 9).present = srcUpstream := by
  decide +kernel

/-- 08's example: the counter passes the limit of 5. -/
theorem test_flap : (takeAlarm (operating 9#32) true 0#8 0#8 { resetLine with los := false, flapCounter := 5 }).flapLimit = true
    ∧ (takeAlarm (operating 9#32) true 0#8 0#8 { resetLine with los := false, flapCounter := 4 }).flapLimit = false := by
  decide +kernel

theorem test_portstat : (record (after (.portstatFrame 18#8 true true) (operating 9#32)) (portRecord 18)).latched = srcTxFault := by
  decide +kernel

theorem test_clean_interval :
    (line (after (.cleanIntervalExpiry 9) (updLine 9 (fun x => { x with flapCounter := 3 }) (operating 9#32))) 9).flapCounter = 2 := by
  decide +kernel

theorem test_discard :
    (record (after (.lslFrameDiscard [9#8]) (operating 9#32)) deviceRecord).latched = srcLslFrameError := by decide +kernel

/-! ### Fault records (08's example of a flapping trunk) -/

/-- Trunk 9 quarantined with FLAP_LIMIT, its three sources latched. -/
def quarantined : Device :=
  updRecord 9 (fun x => { x with present := srcFlapLimit ||| srcQuarantined, latched := srcLos ||| srcFlapLimit ||| srcQuarantined })
    (operating 9#32)

theorem test_fault_clear :
    (record (after .faultClear (post .c 0x404#32 [u1 0, u1 0, u1 9, u4 0x181] quarantined)) 9).latched
      = srcFlapLimit ||| srcQuarantined ||| srcLos &&& 0#22 := by decide +kernel

/-- R201: the count byte, and the one record's latched flags at the next multiple of 4. -/
theorem test_fault_clear_response :
    response .c 8 (after .faultClear (post .c 0x404#32 [u1 0, u1 0, u1 9, u4 0x181] quarantined))
      = [1#8, 0#8, 0#8, 0#8, 0#8, 0#8, 0x01#8, 0x80#8] := by decide +kernel

theorem test_mask_set : (record (after .maskSet (post .c 0x405#32 [u1 0, u1 2, u1 0, u4 0x3FFFFF] (operating 9#32))) 48).mask
    = deviceSources := by decide +kernel

theorem test_mask_clear :
    (record (after .maskClear (post .c 0x406#32 [u1 0, u1 1, u1 31, u4 0x200]
      (updRecord 47 (fun x => { x with mask := portSources }) (operating 9#32)))) 47).mask = 0x1C00#22 := by decide +kernel

theorem test_mask_write :
    (record (after .maskWrite (post .c 0x407#32 [u1 1, u1 7, u4 0x002] (operating 9#32))) 15).mask = srcLowWarn := by
  decide +kernel

theorem test_group_write :
    (record (after .groupWrite (post .c 0x408#32 [u1 0, u1 15, u1 0x08] (operating 9#32))) 15).groups = 0x88#8 := by decide +kernel

/-- R153: at most four groups. -/
theorem test_group_write_refused :
    answer .c (after .groupWrite (post .c 0x408#32 [u1 0, u1 15, u1 0x1F] (operating 9#32)))
      = (.failed, some .badParameter, some 2) := by decide +kernel

/-- R150, R152: the action QUARANTINE on LOS takes effect in the event of its onset. -/
theorem test_onset_quarantines :
    (let d := after (.alarmFrame 15#8 true 0#8 0#8)
      (setImage { testImage with actions := testImage.actions.set 0 .quarantine } (operating 9#32))
     ((d.fra.trunks.get 15).service, (record d 15).latched)) = (.quarantined, srcLos ||| srcQuarantined) := by decide +kernel

/-- R6: QUARANTINE is not allowed for LOW_WARN, and NOTIFY is stored in its place. -/
theorem test_action_write :
    response .c 1 (after .actionWrite (post .c 0x401#32 [u1 0, u1 1, u1 2] (operating 9#32))) = [0#8]
      ∧ answer .c (after .actionWrite (post .c 0x401#32 [u1 0, u1 1, u1 2] (operating 9#32))) = (.done, some .done, none) := by
  decide +kernel

/-! ### Metering and charging (09's and 10's examples) -/

def severeSecond : Snapshot := ⟨801209#32, none, false, [], none, none⟩

/-- Second 801,209: the tenth SEVERE second in a row. -/
theorem test_unavailable :
    (gradeRecipient 803700 severeSecond ⟨true, false⟩
        { freshRecipient with run := 9, meters := { noMeters with clean := 3800, metered := 3809 } }).availability = .unavailable
      ∧ (gradeRecipient 803700 severeSecond ⟨true, false⟩
        { freshRecipient with run := 9, meters := { noMeters with clean := 3800, metered := 3809 } }).meters
          = { noMeters with clean := 3800, metered := 3810, unavailable := 10 } := by decide

/-- Second 802,709: the tenth second of the recovery run. -/
theorem test_recovery :
    (gradeRecipient 803700 ⟨802709#32, some 88, false, [], none, some ⟨.clean, false⟩⟩ ⟨true, false⟩
        { freshRecipient with
          availability := .unavailable, run := 9, runClean := 8, runErrored := 1
          meters := { noMeters with clean := 3800, unavailable := 1500, metered := 5309 } }).meters
      = { noMeters with clean := 3809, errored := 1, unavailable := 1500, metered := 5310 } := by decide

/-- Second 802,700: CLEAN on its lane, raised to ERRORED by the switch. -/
theorem test_switch_hit :
    recipientGrade ⟨802700#32, some 88, true, [], none, some ⟨.clean, false⟩⟩ ⟨true, false⟩ = .errored := by decide

/-- R163: the live defect stands in the view of the last graded second. -/
theorem test_last_graded_defect :
    (recipientFields 5 { freshRecipient with last := some ⟨600009#32, .severe, some ⟨true, false⟩⟩ }).drop 15
      = [u1 1, u1 3, u4 600009, u1 1, u1 1, u1 0] := by decide

/-- Slot 7 closed at `c` on node 20 with five SEVERE seconds pending; the boundary at 600,010 is owed. -/
def closing (c : Nat) (waiting : List SlotId) : Device :=
  let d := hold 7 2#8 { semiFinal with state := .settling, recipients := [5], closeTime := some c } (operating 600010#32)
  let d := setMeter 7
    (some ⟨some 20, false, [], 600009#32, [{ freshRecipient with run := 5, meters := { noMeters with metered := 5 } }]⟩) d
  { d with owed := ⟨[], [], [600010#32]⟩, bkc := { d.bkc with unbilled := waiting } }

/-- R140, R164, R165: the second that trunk 9's frame closes makes slot 7's snapshot ready, and it is applied. -/
theorem test_second_applies_snapshot :
    (let d := hold 7 2#8 { semiFinal with state := .live, recipients := [5] } awaiting
     let d := setMeter 7 (some ⟨some 20, false, [⟨800000#32, some 74, false, [⟨true, false⟩], none, none⟩], 800001#32,
       [freshRecipient]⟩) d
     ((after (.secondFrame 9#8 0#8 (cleanLanes.set 2 ⟨37#16, false, false⟩)) d).svm.records.get 7).map fun m =>
       (m.queue, m.recipients.map fun x => x.meters))
      = some ([], [{ noMeters with metered := 1, overrun := 1, errored := 1 }]) := by decide +kernel

/-- R162, R170, R184: the last snapshot is SEVERE, the run of six is booked as severe, and the record is placed. -/
theorem test_settlement : ((after .svmBoundary (closing 600010 [])).bq.queue.map fun x =>
      (x.serial, x.charge.meters.severe, x.charge.meters.metered, x.charge.gross)) = [(1#32, 6, 6, 105 * 850)]
    ∧ (after .svmBoundary (closing 600010 [])).bkc.slots.get 7 = ⟨3#8, none⟩ := by decide +kernel

/-- A long match with extra time: gross, credit, net, SLA_BREACH. -/
theorem test_charge :
    (let c := normalCharge (booking .settling 33 none [5] 600000 607200 300 1800)
        { freshRecipient with
          meters := { noMeters with overrun := 1130, unavailable := 47, errored := 130 }, connectedSeen := true }
     (c.gross, c.credit, c.net, c.slaBreach)) = (126225, 2251, 123974, true) := by decide

/-- The late cancel of 10's example: 30 minutes at 850. -/
theorem test_late_charge : (lateCharge semiFinal).net = 25500 ∧ (lateCharge semiFinal).neverConnected = true := by decide

def oneRecord : Device :=
  { operating 9#32 with bq := ⟨[billRecord (operating 9#32) 7 semiFinal 41#32 5 (lateCharge semiFinal)], 42#32⟩ }

theorem test_fetch_empty :
    answer .d (after .billFetch (post .d 0x502#32 [u1 8] (operating 9#32))) = (.failed, some .queueEmpty, none) := by
  decide +kernel

theorem test_fetch : response .d 12 (after .billFetch (post .d 0x502#32 [u1 8] oneRecord))
    = [1#8, 0#8, 0#8, 1#8, 0#8, 0#8, 0#8, 42#8, 0#8, 0#8, 0#8, 41#8] := by decide +kernel

theorem test_release : (after .billRelease (post .d 0x503#32 [u4 41] oneRecord)).bq = ⟨[], 42#32⟩ := by decide +kernel

theorem test_release_refused :
    answer .d (after .billRelease (post .d 0x503#32 [u4 42] oneRecord)) = (.failed, some .notInQueue, some 0) := by
  decide +kernel

theorem test_meter_read_refused :
    answer .a (after .meterRead (post .a 0x501#32 [u2 0x0003] busyVenue)) = (.failed, some .wrongState, some 0) := by
  decide +kernel

/-! ### Settings and configuration (01's example of clamping; R12, R16) -/

def clampingWrite : List Field := [u1 0, u1 2, s2 (-175), s2 (-410), s2 120, u1 2, u1 0]

theorem test_profile_write :
    (after .profileWriteLevels (post .c 0x205#32 clampingWrite (operating 9#32))).csc.image.profiles.get 2
      = ⟨-175, -400, 100, 5, 1⟩ := by decide +kernel

theorem test_profile_write_refused :
    answer .c (after .profileWriteLevels (post .c 0x205#32 [u1 0, u1 2, s2 (-420), s2 (-400), s2 100, u1 5, u1 1] (operating 9#32)))
      = (.failed, some .badParameter, some 2) := by decide +kernel

theorem test_profile_select :
    (after .profileWriteSelect (post .c 0x205#32 [u1 1, u1 15, u1 3] (operating 9#32))).csc.image.choices.get 15 = 3 := by
  decide +kernel

/-- R5, R9: −73 is rounded toward zero to −70. -/
theorem test_cal_write :
    (after .calWrite (post .c 0x206#32 [u1 9, s2 (-73)] (operating 9#32))).csc.image.calibration.get 9 = -70 := by decide +kernel

theorem test_tariff_write :
    (after .tariffWrite (post .d 0x207#32 [u1 4, u2 850, u2 99, u2 301, u1 101, u1 241, u2 3601] (operating 9#32))).csc.image.tariffs.get 4
      = ⟨850, 100, 300, 100, 240, 3600⟩ := by decide +kernel

theorem test_config_write_roles_refused :
    answer .a (after .configWrite (post .a 0x201#32 [u1 3, u1 7, u1 7, u1 7, u1 7] (operating 9#32)))
      = (.failed, some .badParameter, some 1) := by decide +kernel

/-- R14: trunk 4 is the lowest whose entry changes and which a booking uses (slot 1's lane 32); its field is at 1 + 4. -/
theorem test_config_write_in_use :
    answer .a (after .configWrite (post .a 0x201#32 (u1 1 :: List.replicate 16 (u1 0xFF)) busyVenue))
      = (.failed, some .inUse, some 5) := by decide +kernel

/-- R9's examples (a hold-off of 47 is 40) and R131, R150: with 5 flaps counted, a limit lowered to 4 gives trunk 9 an onset of
FLAP_LIMIT, which quarantines it as the factory action says; trunk 8, at 4 flaps, stays in service. -/
def flapping : Device :=
  post .a 0x201#32 [u1 8, u2 47, u2 29, u2 301, u1 4, u1 3, u2 4, u2 601]
    (updLine 8 (fun x => { x with flapCounter := 4 }) (updLine 9 (fun x => { x with flapCounter := 5 }) (operating 9#32)))

theorem test_config_write_defaults : (after .configWrite flapping).csc.image.defaults = ⟨40, 30, 300, 4, 4, 5, 600⟩
    ∧ (line (after .configWrite flapping) 9).flapLimit = true
    ∧ ((after .configWrite flapping).fra.trunks.get 9).service = .quarantined
    ∧ ((after .configWrite flapping).fra.trunks.get 8).service = .normal := by decide +kernel

theorem test_config_read : response .a 5 (after .configRead (post .a 0x202#32 [u1 3] (operating 9#32)))
    = [15#8, 15#8, 15#8, 15#8, 0#8] := by decide +kernel

def saving : Device := after .configSave (post .b 0x203#32 [] (operating 9#32))

theorem test_save_taken : (window saving .b).command = .taken ∧ saving.cpi.serving = some .b := by decide +kernel

theorem test_save_done : answer .b (after (.configSaveEnd .verified) saving) = (.done, some .done, none) := by decide +kernel

theorem test_save_failed :
    answer .b (after (.configSaveEnd .eraseRefused) saving) = (.failed, some .storeFailed, none) := by decide +kernel

/-! ### Control ports (R192 to R196, R158; 11's example of three ports) -/

/-- While B's save holds the engine: D and A have posted, and B's parameter write is discarded. -/
theorem test_taken_discards :
    (window (after (.parameterAreaWrite .b 0 0xFFFFFFFF#32) saving) .b).params = (window saving .b).params := by decide +kernel

theorem test_rotation :
    chosenPort (after (.configSaveEnd .verified) (post .a 0x101#32 [] (post .d 0x502#32 [u1 1] saving))) = some .d := by
  decide +kernel

theorem test_command_word : (window (after (.commandWordWrite .a 0xFFFF0003#32) (operating 9#32)) .a).command = .ready
    ∧ (window (after (.commandWordWrite .a 0x101#32) (operating 9#32)) .a).command = .posted 0x101#32 := by decide +kernel

theorem test_enable : (window (after (.noticeEnableWrite .a 0xFFFFFFFF#32) (operating 9#32)) .a).enable = 0x7F#7 := by
  decide +kernel

theorem test_parameter_write :
    windowRead (after (.parameterAreaWrite .a 255 0x01020304#32) (operating 9#32)) .a 0x43C = 0x01020304#32 := by decide +kernel

theorem test_window_write_discarded : windowRead (after (.windowWrite .a 0x01C 0xFFFFFFFF#32) (operating 9#32)) .a 0x01C = 0#32 := by
  decide +kernel

theorem test_presence : windowRead (operating 9#32) .d 0x000 = 0x6B080018#32 := by decide +kernel

theorem test_bad_command :
    answer .a (after .badCommand (post .a 0x100#32 [] (operating 9#32))) = (.failed, some .badCommand, none) := by decide +kernel

/-- 11's example: port C, with OPERATE only, posts BOOK_SUBMIT. -/
theorem test_not_permitted :
    answer .c (after .bookSubmit (post .c 0x101#32 []
      (setImage { testImage with roles := Vector.replicate 4 ⟨false, true, false, false⟩ } (operating 9#32))))
      = (.failed, some .notPermitted, none) := by decide +kernel

theorem test_table_read : response .a 8 (after .tableRead (post .a 0x601#32 [u1 6, u2 15, u1 200] (operating 9#32)))
    = [6#8, 0#8, 0#8, 15#8, 1#8, 0#8, 0xFF#8, 0xFF#8] := by decide +kernel

theorem test_table_next_without_cursor :
    answer .a (after .tableNext (post .a 0x602#32 [u1 1] (operating 9#32))) = (.failed, some .wrongState, none) := by decide +kernel

theorem test_notice_clear :
    (window (after .noticeClear (post .a 0x603#32 [u1 0x0A]
      (updWindow .a (fun w => { w with sticky := 0x07#7 }) (operating 9#32)))) .a).sticky = 0x05#7 := by decide +kernel

theorem test_restart_refused :
    answer .a (after .deviceRestart (post .a 0x204#32 [u1 0] settingUp)) = (.failed, some .inUse, some 0) := by decide +kernel

theorem test_restart : (after .deviceRestart (post .a 0x204#32 [u1 1] settingUp)).cpi.phase = .selfCheck := by decide +kernel

/-! ### Witnesses: states and operands that meet the hypotheses of the statements -/

theorem operating_empty (t : Word) (i : SlotId) : bookingAt (operating t) i = none := by
  simp [bookingAt, operating, resetDevice, resetBkc, Vector.get]

theorem witness_OnlyWritesOutsideWordsStop : exec (.windowWrite .a 2048 0#32) ⟨operating 9#32, []⟩ = .fault .outsideWindow
    ∧ exec (.windowWrite .a 2047 0#32) ⟨operating 9#32, []⟩ = .fault .notAWord
    ∧ ∃ d', Answers (.windowWrite .a 2044 0#32) ⟨operating 9#32, []⟩ d' := ⟨rfl, rfl, _, rfl⟩

/-- A step of a state that answers a next state: the premise that every kept law has besides itself. -/
theorem witness_step (d : Device) : ∃ t, step ⟨d, [.resetNotice]⟩ = .next t := ⟨_, rfl⟩

theorem witness_WindowsKeepTheirForm : AreasCanonical saving ∧ TakenLaw saving := by
  refine ⟨⟨fun p => ?_, ?_⟩, fun p => ?_⟩
  · unfold AreaCanonical; cases p <;> decide +kernel
  · unfold AreaCanonical; decide +kernel
  · cases p <;> decide +kernel

theorem witness_FlapLawKept : FlapLaw (updLine 9 (fun x => { x with flapCounter := 6, flapLimit := true }) (operating 9#32)) := by
  unfold FlapLaw; decide +kernel

theorem witness_ImageStaysInRange : ImageInRange testImage := by
  unfold ImageInRange ProfileInRange TariffInRange DefaultsInRange; decide +kernel

theorem witness_QueueLawKept : QueueLaw oneRecord := by
  refine ⟨by decide, fun k r h => ?_, by decide +kernel⟩
  match k with
  | 0 => cases h; decide
  | n + 1 => simp [oneRecord] at h

/-- Nine SEVERE seconds pending. -/
def metered : Device :=
  setMeter 7 (some ⟨some 20, true, [], 600009#32, [{ freshRecipient with run := 9, meters := { noMeters with metered := 9 } }]⟩)
    (hold 7 2#8 { semiFinal with state := .live, node := some 20 } (operating 600010#32))

theorem metered_records (i : SlotId) : metered.svm.records.get i =
    if i = 7 then some ⟨some 20, true, [], 600009#32, [{ freshRecipient with run := 9, meters := { noMeters with metered := 9 } }]⟩
    else none := by
  revert i; decide +kernel

theorem witness_MetersLawKept : MetersLaw metered := by
  intro i m h r hr
  rw [metered_records] at h
  split at h
  · cases h
    simp only [List.mem_singleton] at hr
    subst hr
    simp [MeterLaw, freshRecipient, noMeters]
  · cases h

/-- The node of slot 2, and an UNBILLED booking in slot 4. -/
def owned : Device :=
  let d := hold 4 1#8 (booking .unbilled 33 (some 41) [12] 496000 503200 600 3600) settingUp
  { d with bkc := { d.bkc with unbilled := [4] } }

def ownedBooking : Booking := { booking .armed 33 (some 40) [7, 12] 505800 513000 600 3600 with node := some 20 }

theorem owned_bookings (i : SlotId) : bookingAt owned i =
    if i = 2 then some ownedBooking
    else if i = 4 then some (booking .unbilled 33 (some 41) [12] 496000 503200 600 3600) else none := by
  revert i; decide +kernel

theorem owned_nodes (n : FeedNode) : node owned n = if n = 20 then ⟨.owned, some ⟨2, 5#8⟩, some 33, .none, false, false, none⟩
    else ⟨.free, none, none, .none, false, false, none⟩ := by
  revert n; decide +kernel

theorem owned_ports (p : HandoffPort) : port owned p =
    if p = 7 then ⟨some ⟨⟨2, 5#8⟩, 20⟩, false, .park, false, none⟩
    else if p = 12 then ⟨some ⟨⟨2, 5#8⟩, 20⟩, false, .test, false, none⟩ else ⟨none, false, .park, false, none⟩ := by
  revert p; decide +kernel

theorem owned_joining (p : HandoffPort) (n : FeedNode) : ¬joining owned p n := by
  rintro (h | ⟨o, h, k⟩)
  · rw [owned_ports] at h
    split at h
    · cases h
    · split at h <;> cases h
  · cases h; cases k

theorem witness_FabricLawKept : UnbilledLaw owned ∧ FabricLaw owned := by
  have hb : bookingOf owned ⟨2, 5#8⟩ = some ownedBooking := by decide +kernel
  refine ⟨⟨by decide, fun i => ?_⟩, fun n h => ⟨?_, fun p => ?_, fun o ho => ?_⟩, fun n => ?_, fun n h hn => ?_, fun i b n h hn => ?_,
    fun p c h => ?_, by decide, fun i h => by cases h⟩
  · rw [owned_bookings]
    revert i; decide +kernel
  · revert h; rw [owned_nodes]; split <;> simp
  · rw [owned_ports]; split
    · simp
    · split <;> simp
  · cases ho
    rintro (⟨l, k⟩ | k | ⟨p, k⟩) <;> cases k
    rw [owned_nodes] at h
    simp at h
  · rw [owned_nodes]; split <;> simp
  · rw [owned_nodes] at hn
    split at hn
    · cases hn; subst n
      exact ⟨_, hb, rfl, rfl, fun p k => absurd k (owned_joining p 20)⟩
    · cases hn
  · rw [owned_bookings] at h
    split at h
    · cases h; cases hn; subst i; decide +kernel
    · split at h
      · cases h; cases hn
      · cases h
  · rw [owned_ports] at h
    split at h
    · cases h; subst p; exact ⟨by decide +kernel, _, hb, by decide⟩
    · split at h
      · cases h; subst p; exact ⟨by decide +kernel, _, hb, by decide⟩
      · cases h

/-- Trunk 9 has LOS, and its lanes are failed. -/
def cut : Device :=
  let d := updRecord 9 (fun x => { x with present := srcLos }) (updLine 9 (fun x => { x with los := true }) (operating 9#32))
  { d with psu := { d.psu with failed := Vector.ofFn fun l => decide (trunkOf l = 9) } }

theorem sharing_bookings (i : SlotId) : (bookingAt sharing i).map (fun b => (b.state, b.working, b.protection)) =
    if i = 21 then some (.live, 72, some 88) else if i = 22 then some (.live, 80, some 88) else none := by
  revert i; decide +kernel

theorem sharing_selectors (i : SlotId) : selectorAt sharing i =
    if i = 21 then some (selector ⟨21, 6#8⟩ .onProtection 72 (some 88) none)
    else if i = 22 then some (selector ⟨22, 1#8⟩ .waiting 80 (some 88) none) else none := by
  revert i; decide +kernel

theorem sharing_lanes (l : Lane) : lane sharing l =
    if l = 88 then ⟨some ⟨21, 6#8⟩, [⟨⟨22, 1#8⟩, 1, 801200#32⟩]⟩ else ⟨none, []⟩ := by
  revert l; decide +kernel

theorem sharing_failed (l : Lane) : laneFailed sharing l = decide (l = 72 ∨ l = 80) := by
  revert l; decide +kernel

/-- The two selectors, by slot. -/
theorem sharing_selector {i : SlotId} {x : Selector} (h : selectorAt sharing i = some x) :
    (i = 21 ∧ x = selector ⟨21, 6#8⟩ .onProtection 72 (some 88) none)
      ∨ (i = 22 ∧ x = selector ⟨22, 1#8⟩ .waiting 80 (some 88) none) := by
  rw [sharing_selectors] at h
  repeat' split at h
  · exact .inl ⟨‹_›, (Option.some.inj h).symm⟩
  · exact .inr ⟨‹_›, (Option.some.inj h).symm⟩
  · cases h

theorem sharing_law : SelectorLaw sharing := by
  refine ⟨fun i => ⟨?_, fun x b hx hb => ?_⟩, fun i x hx => ?_, fun l => ⟨fun h => ?_, fun h => ?_, ?_, ?_, fun _ _ => ?_⟩⟩
  · have hb := sharing_bookings i
    rw [sharing_selectors]
    repeat' split at hb
    all_goals simp_all [running]
    all_goals obtain ⟨b, hb, hs, -⟩ := hb; exact ⟨b, hb, by simp [hs]⟩
  · have h := sharing_bookings i
    rw [hb] at h
    obtain ⟨rfl, rfl⟩ | ⟨rfl, rfl⟩ := sharing_selector hx <;> simp at h <;>
      exact ⟨by decide +kernel, h.2.1.symm, h.2.2.symm⟩
  · obtain ⟨rfl, rfl⟩ | ⟨rfl, rfl⟩ := sharing_selector hx <;> simp [selector, sharing_failed]
  · rw [sharing_lanes]
    constructor
    · intro k
      split at k
      · cases k; exact ⟨_, by rw [sharing_selectors]; rfl, rfl, by simp [selector, *], rfl⟩
      · cases k
    · rintro ⟨x, hx, hh, hl, hs⟩
      obtain ⟨hi, rfl⟩ | ⟨hi, rfl⟩ := sharing_selector hx
      · cases hl; simpa [selector] using hh
      · cases hs
  · rw [sharing_lanes]
    constructor
    · rintro ⟨w, hw, rfl⟩
      split at hw
      · simp only [List.mem_singleton] at hw; subst hw
        exact ⟨_, by rw [sharing_selectors]; rfl, rfl, by simp [selector, *], rfl⟩
      · cases hw
    · rintro ⟨x, hx, hh, hl, hs⟩
      obtain ⟨hi, rfl⟩ | ⟨hi, rfl⟩ := sharing_selector hx
      · cases hs
      · cases hl; simpa [selector] using hh
  · rw [sharing_lanes]; split <;> decide
  · rw [sharing_lanes]; split <;> decide
  · revert l; decide +kernel

/-- Two bookings share a protection lane, one its holder and one that waits for it; and a trunk with LOS. -/
theorem witness_DefectLawsKept : UnbilledLaw sharing ∧ LineRecordLaw sharing ∧ LaneViewLaw sharing ∧ SelectorLaw sharing
    ∧ LineRecordLaw cut ∧ LaneViewLaw cut := by
  refine ⟨⟨by decide +kernel, fun i => ?_⟩, ?_, ?_, sharing_law, ?_⟩
  · revert i; decide +kernel
  · unfold LineRecordLaw; decide +kernel
  · unfold LaneViewLaw; decide +kernel
  · unfold LineRecordLaw LaneViewLaw; decide +kernel

def place0 : Booking := booking .pending 48 (some 40) [3] 503600 510800 600 1800
def place1 : Booking := booking .pending 32 none [9] 504000 511200 300 0
def place3 : Booking := booking .pending 0 none [20] 504300 508000 300 900

theorem busyVenue_bookings (i : SlotId) : bookingAt busyVenue i =
    if i = 0 then some place0 else if i = 1 then some place1 else if i = 3 then some place3
    else if i = 4 then some (booking .unbilled 33 (some 41) [12] 496000 503200 600 3600) else none := by
  revert i; decide +kernel

theorem busyVenue_holding (i : SlotId) (b : Booking) (h : bookingAt busyVenue i = some b) (hb : holds b = true) :
    (i = 0 ∧ b = place0) ∨ (i = 1 ∧ b = place1) ∨ (i = 3 ∧ b = place3) := by
  rw [busyVenue_bookings] at h
  repeat' split at h
  · exact .inl ⟨‹_›, (Option.some.inj h).symm⟩
  · exact .inr (.inl ⟨‹_›, (Option.some.inj h).symm⟩)
  · exact .inr (.inr ⟨‹_›, (Option.some.inj h).symm⟩)
  · cases h; cases hb
  · cases h

theorem witness_CalendarLawKept : CalendarLaw busyVenue := by
  intro i j b c hij hb hc hhb hhc _ _
  obtain ⟨rfl, rfl⟩ | ⟨rfl, rfl⟩ | ⟨rfl, rfl⟩ := busyVenue_holding i b hb hhb <;>
    obtain ⟨rfl, rfl⟩ | ⟨rfl, rfl⟩ | ⟨rfl, rfl⟩ := busyVenue_holding j c hc hhc <;>
    first | exact absurd rfl hij | (simp [place0, place1, place3, booking])

theorem witness_LslUnitReadsBack : ∀ t raw valid, LslFrame.power 15 (-32768) true = .power t raw valid → -32768 ≤ raw ∧ raw ≤ 32767 := by
  intro t raw valid h
  cases h
  decide

theorem witness_SavedImageLoads : ImageInRange testImage := witness_ImageStaysInRange

theorem witness_ResetsKeepOnlyFlash : (operating 9#32).csc.writing = none ∧ saving.csc.writing.isSome = true ∧ 425 < imageSize := by
  decide +kernel

/-- A part whose flash is neither blank nor valid. -/
def badFlash : Device := { resetDevice [(0, 0x00#8)] with cpi := { resetCpi with phase := .load } }

/-- A flash that a save has filled. -/
def goodFlash : Memory := flashHolding (imageBytes factoryImage 1#16)

set_option maxRecDepth 100000 in
theorem goodFlash_valid : (flashImage goodFlash).isSome = true ∧ flashIsBlank goodFlash = false := by decide +kernel

set_option maxRecDepth 100000 in
theorem witness_StartUpJudgesMemoriesAndFlash : (resetDevice []).cpi.phase = .selfCheck ∧ loading.cpi.phase = .load
    ∧ flashIsBlank loading.csc.flash = true ∧ badFlash.cpi.phase = .load ∧ flashIsBlank badFlash.csc.flash = false
    ∧ flashImage badFlash.csc.flash = none := by decide +kernel

theorem witness_RestartWriteStartsMonitoring : restartWriting.cpi.phase = .restartWrite
    ∧ (restartWriting.csc.writing.map fun w => w.started) = some 0 ∧ restartWriting.tb.clock ≤ 0 + 400
    ∧ (restartWriting.csc.writing.map fun w => decide (([] : List Byte) ≠ w.bytes)) = some true
    ∧ 0 + 400 < { restartWriting.tb with clock := 401 }.clock := by decide +kernel

theorem witness_OscillatorBoundaryAdvancesTime : (operating 9#32).tb.ref = .absent ∧ lost.tb.ref = .holdover
    ∧ relocking.tb.ref = .relocking ∧ relocking.tb.spaced = 3 ∧ locked.tb.ref = .locked := by decide +kernel

/-- The states of a relock, the spacings on both sides of 999 and 1,001 ms, a loss due at the pulse and one millisecond before
it, and a boundary due one millisecond after the pulse and at it. -/
theorem witness_ReferencePulseMovesRelock : (operating 9#32).tb.ref = .absent ∧ lost.tb.ref = .holdover ∧ locked.tb.ref = .locked
    ∧ relocking.tb.ref = .relocking ∧ relocking.tb.spaced = 3 ∧ relocking.tb.lastPulse = some 7651 ∧ relocking.tb.clock = 7651
    ∧ (after (.referencePulse 999) relocking).tb.ref = .locked ∧ (after (.referencePulse 1001) relocking).tb.ref = .locked
    ∧ (after (.referencePulse 998) relocking).tb.ref = .relocking
    ∧ (after (.referencePulse 1002) relocking).tb.ref = .relocking
    ∧ locked.tb.lastPulse = some 0 ∧ (after (.referencePulse 1200) locked).tb.ref = .locked
    ∧ (after (.referencePulse 1201) locked).tb.ref = .relocking
    ∧ (operating 9#32).tb.clock - (operating 9#32).tb.elapsed + 1000 = 1000
    ∧ (after (.referencePulse 999) (operating 9#32)).tb.time = 9#32
    ∧ (after (.referencePulse 1000) (operating 9#32)).tb.time = 10#32 := by decide +kernel

theorem witness_ReferenceLossHoldsOver : locked.tb.lastPulse = some 0 ∧ locked.tb.ref = .locked
    ∧ hasSource (record locked deviceRecord).present srcReferenceLost = false
    ∧ relocking.tb.lastPulse = some 7651 ∧ relocking.tb.ref = .relocking := by decide +kernel

/-- The greatest value accepted and the least refused; no booking; a booking in use; a booking that arms at the value. -/
theorem witness_TimeSetSetsTime : Takes (post .a 0x107#32 [u4 0xEFFFFFFF] (operating 9#32)) .a .timeSet
    ∧ param (window (post .a 0x107#32 [u4 0xEFFFFFFF] (operating 9#32)) .a).params 0 4 < 0xF0000000
    ∧ Takes (post .a 0x107#32 [u4 0xF0000000] (operating 9#32)) .a .timeSet
    ∧ Takes (post .a 0x107#32 [u4 1] settingUp) .a .timeSet
    ∧ ((bookingAt settingUp 2).map fun b => b.state) = some .armed
    ∧ Takes (post .a 0x107#32 [u4 503000] busyVenue) .a .timeSet
    ∧ place0.state = .pending ∧ place0.start - place0.lead ≤ 503000 := by decide +kernel

/-! ### Boundaries -/

/-- The BKC is owed the boundary at `t`; slot 7 holds `b`. -/
def owedBoundary (b : Booking) (t : Word) : Device := { hold 7 2#8 b (operating t) with owed := ⟨[t], [], []⟩ }

theorem owedBoundary_booking (b : Booking) (t : Word) : bookingAt (owedBoundary b t) 7 = some b := by
  simp [owedBoundary, hold, bookingAt, updSlot]

theorem owedBoundary_selectors (i : SlotId) : selectorAt (owedBoundary semiFinal 599700#32) i = none := by
  revert i; decide +kernel

theorem owedBoundary_lanes (l : Lane) : lane (owedBoundary semiFinal 599700#32) l = ⟨none, []⟩ := by
  revert l; decide +kernel

/-- A state in which nothing runs yet and one booking is about to arm meets the law of the selectors. -/
theorem owedBoundary_law : SelectorLaw (owedBoundary semiFinal 599700#32) := by
  refine ⟨fun i => ⟨?_, fun x b hx => ?_⟩, fun i x hx => ?_, fun l => ?_⟩
  · have h : (bookingAt (owedBoundary semiFinal 599700#32) i).all (fun b => !running b) = true := by revert i; decide +kernel
    simp only [owedBoundary_selectors, ne_eq, not_true_eq_false, false_iff, not_exists, not_and]
    intro b hb
    simpa [hb] using h
  · rw [owedBoundary_selectors] at hx; cases hx
  · rw [owedBoundary_selectors] at hx; cases hx
  · simp [owedBoundary_lanes, owedBoundary_selectors]

/-- The law of the feed nodes in a device whose nodes are all FREE, whose ports are all on PARK and whose bookings have no node. -/
theorem idle_fabric {d : Device} (hn : ∀ n, node d n = { resetNode with state := .free, confirmed := .none })
    (hp : ∀ p, port d p = { resetPort with confirmed := .park }) (ho : d.fcu.inFlight = none) (hw : d.bkc.nodeWait = [])
    (hb : ∀ i, (bookingAt d i).all (fun b => decide (b.node = none)) = true) : FabricLaw d := by
  refine ⟨fun n _ => ⟨by rw [hn], fun p => (by rw [hp]; simp), fun o h => (by rw [ho] at h; cases h)⟩,
    fun n => (by rw [hn]; simp [resetNode]), fun n h k => (by rw [hn] at k; cases k), fun i b n h k => ?_,
    fun p c h => (by rw [hp] at h; cases h), by rw [hw]; exact List.nodup_nil, fun i h => by rw [hw] at h; cases h⟩
  have := hb i
  rw [h, Option.all_some, k] at this
  simp at this

theorem owedBoundary_fabric : FabricLaw (owedBoundary semiFinal 599700#32) :=
  idle_fabric (by decide +kernel) (by decide +kernel) rfl rfl (by decide +kernel)

/-- R67, R170, R176: a booking without allowance closes at its planned end. Where the SVM took that boundary first and every
second is applied, its records are placed at the close; where the boundary is still to be taken, it is SETTLING. -/
def closesAt606300 (taken : Word) : Device :=
  setMeter 7 (some ⟨none, false, [], taken, [freshRecipient, freshRecipient]⟩)
    (owedBoundary { semiFinal with state := .live, allowance := 0 } 606300#32)

theorem test_close_settles :
    (after .bkcBoundary (closesAt606300 606300#32)).bq.queue.map (fun r => (r.charge.gross, r.closeTime))
      = [(89250, 606300), (89250, 606300)]
    ∧ ((bookingAt (after .bkcBoundary (closesAt606300 606299#32)) 7).map fun b => (b.state, b.closeTime))
      = some (.settling, some 606300) := by decide +kernel

/-- R57, R82: with a release guard of 0 slot 3 arms on port 5 at the boundary at which slot 7 closes. The port ends with slot
3's claim, port 6 with none (log entries 9 and 67). -/
def passing : Device :=
  let d := hold 3 1#8 (booking .pending 34 none [5] 606600 613800 300 600) (closesAt606300 606299#32)
  let d := updSlot 7 (fun x => { x with booking := x.booking.map fun b => { b with node := some 40, guard := 0 } }) d
  let d := updNode 40 (fun _ => ⟨.owned, some ⟨7, 2#8⟩, some 33, .lane 33, true, false, none⟩) d
  setClaims 6 (some ⟨⟨7, 2#8⟩, 40⟩) false (setClaims 5 (some ⟨⟨7, 2#8⟩, 40⟩) false d)

theorem test_port_passes : (port (after .bkcBoundary passing) 5).live = some ⟨⟨3, 1#8⟩, 0⟩
    ∧ (port (after .bkcBoundary passing) 6).live = none := by decide +kernel

/-- Each clause at its instant and one second before it. -/
theorem witness_BookingsMeetTheirTimes : SelectorLaw (owedBoundary semiFinal 599700#32)
    ∧ FabricLaw (owedBoundary semiFinal 599700#32)
    ∧ (owedBoundary semiFinal 599700#32).owed.bkc = [599700#32]
    ∧ semiFinal.state = .pending ∧ semiFinal.start - semiFinal.lead = (599700#32 : Word).toNat
    ∧ semiFinal.start - semiFinal.lead ≠ (599699#32 : Word).toNat
    ∧ semiFinal.start = (600000#32 : Word).toNat ∧ semiFinal.start ≠ (599999#32 : Word).toNat
    ∧ semiFinal.plannedEnd = (606300#32 : Word).toNat ∧ 0 < semiFinal.allowance
    ∧ semiFinal.plannedEnd ≠ (606299#32 : Word).toNat
    ∧ semiFinal.plannedEnd + semiFinal.allowance = (608100#32 : Word).toNat
    ∧ semiFinal.plannedEnd + semiFinal.allowance ≠ (608099#32 : Word).toNat
    ∧ ((bookingAt (after .bkcBoundary (owedBoundary { semiFinal with state := .overrun } 607980#32)) 7).map fun b =>
        (b.state, b.overrunWarned)) = some (.overrun, true)
    ∧ ((bookingAt (after .bkcBoundary (owedBoundary { semiFinal with state := .overrun } 607979#32)) 7).map fun b =>
        (b.state, b.overrunWarned)) = some (.overrun, false)
    ∧ (closesAt606300 606300#32).owed.bkc = [606300#32] ∧ (closesAt606300 606300#32).bkc.nodeWait = []
    ∧ ((bookingAt (closesAt606300 606300#32) 7).map fun b => (b.state, b.plannedEnd, b.allowance)) = some (.live, 606300, 0)
    ∧ ((closesAt606300 606300#32).svm.records.get 7).isSome = true :=
  ⟨owedBoundary_law, owedBoundary_fabric, by decide +kernel⟩

theorem witness_LineBoundaryClosesMissingSeconds : silent.owed.lmn = [800004#32] ∧ silent.lmn.opened = true
    ∧ ((line silent 9).awaited.map fun a => (a.los, hasLane a.frameLoss 4, hasLane a.frameLoss 3)) = some (false, true, false)
    ∧ (line silent 0).awaited = none
    ∧ bookingAt { hold 7 2#8 semiFinal silent with svm := metered.svm } 7 = some semiFinal
    ∧ ({ hold 7 2#8 semiFinal silent with svm := metered.svm } : Device).svm.records.get 7
        = some ⟨some 20, true, [], 600009#32, [{ freshRecipient with run := 9, meters := { noMeters with metered := 9 } }]⟩ := by
  decide +kernel

/-- The LIVE booking of slot 7, metered on node 20, at the boundary that ends second 600,009. -/
def meterOwed : Device := { metered with owed := ⟨[], [], [600010#32]⟩ }

theorem witness_MeterBoundaryTakesSnapshots : (∀ w, (closing 600010 w).owed.svm = [600010#32])
    ∧ meterOwed.owed.svm = [600010#32]
    ∧ ((bookingAt meterOwed 7).map fun b => (b.state, meteredDuring b 600009, meteredDuring b 599999)) = some (.live, true, false)
    ∧ (meterOwed.svm.records.get 7).isSome = true
    ∧ ((after .svmBoundary meterOwed).svm.records.get 7).isSome = true
    ∧ ((bookingAt (closing 600010 []) 7).map fun b => (b.state, b.closeTime, meteredDuring b 600009))
        = some (.settling, some 600010, true)
    ∧ ((bookingAt (after .svmBoundary (closing 600011 [])) 7).map fun b => b.state) = some .settling
    ∧ ((bookingAt (after .svmBoundary (closing 600010 [3])) 7).map fun b => b.state) = some .unbilled
    ∧ (closing 600010 []).bkc.unbilled = [] := ⟨fun _ => rfl, by decide +kernel⟩

/-! ### The Line Status Link -/

/-- What the view becomes when lane 88 fails, and when lane 72 recovers. -/
def viewWith (l : Lane) (failed : Bool) (d : Device) : Device := { d with psu := { d.psu with failed := d.psu.failed.set l failed } }

/-- `sharing` meets the law of the selectors, and its lanes may fail and recover; `freed` is a state whose lane 88 waits for its
recovery. -/
theorem witness_LanesTaken : SelectorLaw sharing ∧ (bookingAt sharing 21).isSome = true ∧ (selectorAt sharing 21).isSome = true
    ∧ Fails sharing (viewWith 88 true sharing) 88 ∧ ProtectionFailure sharing (viewWith 88 true sharing) 88
    ∧ Recovers sharing (viewWith 72 false sharing) 72
    ∧ ProtectionRecovery freed (viewWith 88 false freed) 88 ∧ (lane freed 88).holder = none
    ∧ ((selectorAt freed 22).map fun y => laneFailed (viewWith 88 false freed) y.working) = some true := by
  refine ⟨sharing_law, ?_⟩
  unfold ProtectionFailure ProtectionRecovery ProtectionQuarantine Fails Recovers
  decide +kernel

theorem witness_AlarmReplacesDefectState : (15#8 : Byte).toNat = (15 : Trunk).val ∧ (0#8 : Byte).toNat = (0 : Trunk).val
    ∧ (operating 9#32).lmn.monitoring = true ∧ loading.lmn.monitoring = false ∧ (line (operating 9#32) 15).los = false
    ∧ hasSource (record (operating 9#32) (trunkRecord 15)).present srcLos = false := by decide +kernel

theorem witness_SecondFrameClosesAwaitedSecond : (9#8 : Byte).toNat = (9 : Trunk).val ∧ awaiting.lmn.monitoring = true
    ∧ ((line awaiting 9).awaited.map fun a => a.second.toNat % 256) = some (0#8 : Byte).toNat
    ∧ ((line awaiting 9).awaited.map fun a => a.second.toNat % 256) ≠ some (255#8 : Byte).toNat
    ∧ (line awaiting 0).awaited = none ∧ loading.lmn.monitoring = false := by decide +kernel

/-- The counts on both sides of 1 and 2,400. -/
theorem witness_ReportedSecondIsGraded : (line awaiting 9).awaited = some ⟨800000#32, false, 0#8⟩
    ∧ reportGrade ⟨2400#16, false, false⟩ = .severe ∧ reportGrade ⟨2399#16, false, true⟩ = .source
    ∧ reportGrade ⟨0#16, true, false⟩ = .severe ∧ reportGrade ⟨1#16, false, false⟩ = .errored
    ∧ reportGrade ⟨0#16, false, false⟩ = .clean ∧ reportGrade ⟨0xFFFF#16, false, false⟩ = .severe := by decide +kernel

/-- Trunk 6's line record after a valid report. -/
def filtered (raw : Int) (x : Line) : Line := takePower filtering 6 raw x

/-- Onset and end of each condition at its level and one tenth off it, under the profile −180, −220, 0, h 10, f 3 and the
offset −5. -/
theorem witness_PowerFrameIsFiltered : filtering.lmn.monitoring = true ∧ loading.lmn.monitoring = false ∧ (line filtering 6).lowWarn = ⟨false, 2⟩
    ∧ filtering.csc.image.profiles.get (filtering.csc.image.choices.get 6) = ⟨-180, -220, 0, 10, 3⟩
    ∧ (filtered (-175) (line filtering 6)).lowWarn = ⟨true, 0⟩
    ∧ (filtered (-174) (line filtering 6)).lowWarn = ⟨false, 0⟩
    ∧ (filtered (-215) (line filtering 6)).lowAlarm = ⟨false, 1⟩
    ∧ (filtered 5 (line filtering 6)).highAlarm = ⟨false, 1⟩
    ∧ (filtered (-165) { line filtering 6 with lowWarn := ⟨true, 0⟩ }).lowWarn = ⟨true, 1⟩
    ∧ (filtered (-166) { line filtering 6 with lowWarn := ⟨true, 1⟩ }).lowWarn = ⟨true, 0⟩
    ∧ (filtered 32767 (line filtering 6)).saturated = true := by decide +kernel

theorem witness_PortstatReplacesConditions : (0#8 : Byte).toNat = (0 : HandoffPort).val
    ∧ (31#8 : Byte).toNat = (31 : HandoffPort).val ∧ (operating 9#32).lmn.monitoring = true
    ∧ loading.lmn.monitoring = false := by decide +kernel

theorem witness_RefusedUnitsOnlyLatch : lslFrame [9#8] = none ∧ 16 ≤ (16#8 : Byte).toNat ∧ 32 ≤ (32#8 : Byte).toNat
    ∧ loading.lmn.monitoring = false ∧ (operating 9#32).lmn.monitoring = true
    ∧ (operating 9#32).fcu.inFlight = none ∧ settingUp.fcu.inFlight = some ⟨.nodeSelect 20 33, 0x41#8, 1, 40⟩
    ∧ folReply [] = none ∧ folReply [0x23#8, 0#8, 0#8, 0#8] = none := by decide +kernel

theorem witness_CleanIntervalForgetsFlap : (line (operating 9#32) 0).cleanTimer = some 256000
    ∧ (line (operating 9#32) 15).cleanTimer = some 256000 := by decide +kernel

/-! ### The Fabric Order Link -/

/-- An order of any kind in flight, sent once or twice. -/
def ordering (k : OrderKind) (sends : Nat) : Device :=
  { settingUp with fcu := { settingUp.fcu with inFlight := some ⟨k, 0x41#8, sends, 40⟩ } }

theorem ordering_owned (k : OrderKind) : (node (ordering k 1) 20).state = .owned :=
  show (node settingUp 20).state = .owned by decide +kernel

/-- R92: the second expiry of a port order leaves no node FREE. -/
theorem test_give_up_port : (node (ordering (.portPark 7) 2) 3).state = .free
    ∧ (port (after .orderTimerExpiry (ordering (.portPark 7) 2)) 7).confirmed = .unknown
    ∧ (node (after .orderTimerExpiry (ordering (.portPark 7) 2)) 3).state = .draining := by decide +kernel

/-- 04's crowded boundary, cut down: slot 20 waits for a node, and node 22 for the ACK of its NODE_RELEASE. Slot 7, LIVE or
ARMED, owns node 40, which no order has reached, and every other node is DRAINING on a lane. Port B has posted the command
that closes slot 7. The order has been sent once, or twice in the ARMED case. -/
def crowded (late : Bool) : Device :=
  let d := hold 7 2#8 { semiFinal with state := if late then .armed else .live, node := some 40 } (operating 700000#32)
  let d := hold 20 1#8 { booking .armed 34 none [9] 700300 707500 350 600 with nodeWait := true } d
  let d := setClaims 6 (some ⟨⟨7, 2#8⟩, 40⟩) false (setClaims 5 (some ⟨⟨7, 2#8⟩, 40⟩) false d)
  let nodes := Vector.replicate 48 { resetNode with confirmed := .lane 0 }
  post .b (if late then 0x104#32 else 0x103#32) [u2 0x0702]
    { d with
      fcu :=
        { d.fcu with
          nodes := nodes.set 40 ⟨.owned, some ⟨7, 2#8⟩, some 33, .none, false, false, none⟩ (by decide)
          inFlight := some ⟨.nodeRelease 22, 0x41#8, if late then 2 else 1, 40⟩, nextTag := 0x42#8 }
      bkc := { d.bkc with nodeWait := [20] }
      psu :=
        { d.psu with
          selectors := (d.psu.selectors.set 7 (some (selector ⟨7, 2#8⟩ .onWorking 33 (some 40) none))).set 20
            (some (selector ⟨20, 1#8⟩ .unprotected 34 none none)) } }

/-- R60: slot 20 has node `n`, the node its lane and port 9 its claim, and the list is empty. -/
def grantedTo20 (n : FeedNode) (d : Device) : Bool :=
  decide (node d n = ⟨.owned, some ⟨20, 1#8⟩, some 34, .none, false, false, none⟩)
    && decide ((port d 9).live = some ⟨⟨20, 1#8⟩, n⟩)
    && decide ((bookingAt d 20).map (fun b => (b.node, b.nodeWait)) = some (some n, false)) && decide (d.bkc.nodeWait = [])

/-- The ACK of a NODE_RELEASE frees the node, and it goes to the booking at the head of the list. -/
theorem test_ack_grants_node : grantedTo20 22 (after (.fabricAck 0x41#8) (crowded false)) = true := by decide +kernel

/-- A node that no order has reached comes free with the close of its booking, and goes to the head of the list. -/
theorem test_close_grants_node : grantedTo20 40 (after .bookEnd (crowded false)) = true
    ∧ grantedTo20 40 (after .bookCancel (crowded true)) = true := by decide +kernel

theorem crowded_nodes (late : Bool) (n : FeedNode) : node (crowded late) n =
    if n = 40 then ⟨.owned, some ⟨7, 2#8⟩, some 33, .none, false, false, none⟩
    else ⟨.draining, none, none, .lane 0, false, false, none⟩ := by
  revert late n; decide +kernel

theorem crowded_ports (late : Bool) (p : HandoffPort) : port (crowded late) p =
    ⟨if p = 5 ∨ p = 6 then some ⟨⟨7, 2#8⟩, 40⟩ else none, false, .park, false, none⟩ := by
  revert late p; decide +kernel

theorem crowded_bookings (late : Bool) (i : SlotId) :
    (bookingAt (crowded late) i).map (fun b => (b.node, running b, b.recipients)) =
      if i = 7 then some (some 40, true, [5, 6]) else if i = 20 then some (none, true, [9]) else none := by
  revert late i; decide +kernel

/-- The law of the feed nodes, with a node to come free and a booking on the list. -/
theorem crowded_fabric (late : Bool) : FabricLaw (crowded late) := by
  obtain ⟨b, h7, hb⟩ : ∃ b, bookingOf (crowded late) ⟨7, 2#8⟩ = some b ∧ (b.node, running b, b.recipients) = (some 40, true, [5, 6]) := by
    cases late <;> exact ⟨_, rfl, rfl⟩
  simp only [Prod.mk.injEq] at hb
  obtain ⟨hb1, hb2, hb3⟩ := hb
  have hj : ∀ p n, ¬joining (crowded late) p n := by
    rintro p n (h | ⟨o, h, k⟩)
    · rw [crowded_ports] at h; cases h
    · cases h; cases k
  refine ⟨fun n h => ?_, fun n => ?_, fun n h hn => ?_, fun i c n h hn => ?_, fun p c h => ?_, ?_, fun i h => ?_⟩
  · rw [crowded_nodes] at h
    split at h <;> cases h
  · rw [crowded_nodes]; split <;> simp
  · rw [crowded_nodes] at hn
    split at hn
    · cases hn; subst n
      exact ⟨b, h7, hb2, hb1, fun p k => absurd k (hj p 40)⟩
    · cases hn
  · have k := crowded_bookings late i
    rw [h, Option.map_some, hn] at k
    split at k
    · subst i
      rw [Option.some.inj (Prod.mk.inj (Option.some.inj k)).1, crowded_nodes]
      cases late <;> rfl
    · split at k
      · exact absurd (Prod.mk.inj (Option.some.inj k)).1 (Option.some_ne_none n)
      · exact absurd k (Option.some_ne_none _)
  · rw [crowded_ports] at h
    dsimp only at h
    split at h
    · rename_i hp
      cases h
      exact ⟨by rw [crowded_nodes]; rfl, b, h7, by rw [hb3]; rcases hp with rfl | rfl <;> decide⟩
    · cases h
  · exact List.nodup_cons.mpr ⟨List.not_mem_nil, List.nodup_nil⟩
  · rw [show i = 20 from List.mem_singleton.mp h]
    cases late <;> exact ⟨_, rfl, rfl, rfl⟩

theorem witness_AckConfirmsOrder (k : OrderKind) : (ordering k 1).fcu.inFlight = some ⟨k, 0x41#8, 1, 40⟩
    ∧ (ordering k 1).cpi.phase = .operating ∧ (node (ordering k 1) 20).state = .owned
    ∧ clearing.cpi.phase = .clearAll ∧ (clearing.fcu.inFlight.map fun o => o.kind) = some .clearAll
    ∧ selected.cpi.phase = .operating ∧ (selected.fcu.inFlight.map fun o => o.kind) = some (.portJoin 7 20)
    ∧ (after (.fabricAck 0x41#8) { settingUp with cpi := { settingUp.cpi with phase := .halted } }).cpi.phase = .halted
    ∧ FabricLaw (crowded false) ∧ (crowded false).fcu.inFlight = some ⟨.nodeRelease 22, 0x41#8, 1, 40⟩ :=
  ⟨rfl, rfl, ordering_owned k, by decide +kernel, by decide +kernel, by decide +kernel, by decide +kernel, by decide +kernel,
    crowded_fabric false, rfl⟩

theorem witness_NakLeavesConfirmedValues (k : OrderKind) : (ordering k 1).fcu.inFlight = some ⟨k, 0x41#8, 1, 40⟩
    ∧ (ordering k 1).bkc.nodeWait = [] ∧ FabricLaw (crowded false)
    ∧ (crowded false).fcu.inFlight = some ⟨.nodeRelease 22, 0x41#8, 1, 40⟩ := ⟨rfl, rfl, crowded_fabric false, rfl⟩

theorem witness_ResetNoticeClearsFabric : (node settingUp 20).state = .owned ∧ FabricLaw (crowded false) :=
  ⟨by decide +kernel, crowded_fabric false⟩

theorem witness_OrderTimerResendsThenGivesUp (k : OrderKind) : (ordering k 1).fcu.inFlight = some ⟨k, 0x41#8, 1, 40⟩
    ∧ (ordering k 2).fcu.inFlight = some ⟨k, 0x41#8, 2, 40⟩
    ∧ FabricLaw (crowded true) ∧ (crowded true).fcu.inFlight = some ⟨.nodeRelease 22, 0x41#8, 2, 40⟩ :=
  ⟨rfl, rfl, crowded_fabric true, rfl⟩

/-! ### The timers of the selectors -/

/-- Lane 88 failed, held by slot 22, or free. -/
def timing (failed : Bool) (holder : Option Handle) : Device :=
  let d := updLane 88 (fun x => { x with holder := holder }) (protectedBooking .holdOff (some ⟨.holdOff, 50⟩))
  { d with psu := { d.psu with failed := (Vector.replicate 128 false).set 88 failed } }

theorem witness_HoldOffJudgesProtectionLane :
    selectorAt (timing false none) 21 = some (selector ⟨21, 6#8⟩ .holdOff 72 (some 88) (some ⟨.holdOff, 50⟩))
    ∧ laneFailed (timing true none) 88 = true ∧ laneFailed (timing false none) 88 = false
    ∧ laneQuarantined (timing false none) 88 = false ∧ freeFor (timing false none) 88 ⟨21, 6#8⟩ = true
    ∧ freeFor (timing false (some ⟨22, 0#8⟩)) 88 ⟨21, 6#8⟩ = false
    ∧ (lane (timing false (some ⟨22, 0#8⟩)) 88).waiting.Pairwise (fun u v => v.priority ≤ u.priority) := by decide +kernel

/-- The booking that waits in `contested` is the first in need, and awaits the lane. -/
theorem contested_inNeed (state : SelectorState) (timer : Option SelectorTimer) :
    FirstInNeed (contested state timer) 88 ⟨⟨22, 1#8⟩, 1, 801199#32⟩ (selector ⟨22, 1#8⟩ .waiting 80 (some 88) none)
      ∧ Awaits 88 ⟨⟨22, 1#8⟩, 1, 801199#32⟩ (selector ⟨22, 1#8⟩ .waiting 80 (some 88) none) := by
  refine ⟨⟨[], [], ?_, ?_, rfl, fun _ h => absurd h List.not_mem_nil⟩, rfl, rfl, rfl⟩
  · simp [contested, lane, updLane]
  · simp [contested, selectorAt, updLane, setSelector]

theorem witness_RestoreTimersReturnToWorking :
    selectorAt (protectedBooking .waitRestore (some ⟨.waitToRestore, 9⟩)) 21
        = some (selector ⟨21, 6#8⟩ .waitRestore 72 (some 88) (some ⟨.waitToRestore, 9⟩))
    ∧ selectorAt (protectedBooking .onProtection (some ⟨.returnTimer, 9⟩)) 21
        = some (selector ⟨21, 6#8⟩ .onProtection 72 (some 88) (some ⟨.returnTimer, 9⟩))
    ∧ (lane (protectedBooking .onProtection (some ⟨.returnTimer, 9⟩)) 88).waiting = []
    ∧ selectorAt (contested .onProtection (some ⟨.returnTimer, 9⟩)) 21
        = some (selector ⟨21, 6#8⟩ .onProtection 72 (some 88) (some ⟨.returnTimer, 9⟩))
    ∧ (∀ w ∈ (lane (contested .onProtection (some ⟨.returnTimer, 9⟩)) 88).waiting, w.handle.slot ≠ 21)
    ∧ laneFailed (contested .onProtection (some ⟨.returnTimer, 9⟩)) 88 = false
    ∧ laneFailed (timing true none) 88 = true := by decide +kernel

/-- What a check gives, and what it refuses with, as data that can be compared. -/
def given {ε α : Type} : Except ε α → Option α
  | .ok x => some x
  | .error _ => none

def denied {ε α : Type} : Except ε α → Option ε
  | .ok _ => none
  | .error e => some e

theorem given_iff {ε α : Type} (r : Except ε α) (x : α) : given r = some x ↔ r = .ok x := by cases r <;> simp [given]

theorem denied_iff {ε α : Type} (r : Except ε α) (e : ε) : denied r = some e ↔ r = .error e := by cases r <;> simp [denied]

/-! ### Windows and the engine -/

theorem witness_CommandWordFollowsMasterWrites : (window saving .b).command = .taken
    ∧ (window (operating 9#32) .b).command = .ready ∧ (0xFFFF0004#32 : Word) ≠ 0xFFFF0003#32 ∧ (1#32 : Word) ≠ 0#32 := by
  decide +kernel

/-- No listed byte of any area: every area is in form. -/
theorem operating_areas (t : Word) : AreasCanonical (operating t) := by
  have h (p : PortId) : window (operating t) p = resetWindow := by
    simp [window, operating, resetCpi]
  exact ⟨fun p => by rw [h]; exact ⟨⟨rfl, by simp [resetWindow]⟩, rfl, by simp [resetWindow]⟩, rfl, by simp [operating, resetCsc]⟩

theorem witness_MasterWritesReachTheirWords : AreasCanonical (operating 9#32) ∧ (window (operating 9#32) .a).command ≠ .taken
    ∧ AreasCanonical saving ∧ (window saving .b).command = .taken ∧ 0x7FC < 2048 ∧ 0x7FC % 4 = 0 ∧ 0x440 ≤ 0x7FC
    ∧ 0x03C % 4 = 0 ∧ 0x03C < 0x040 ∧ 0x03C ≠ 0x00C ∧ 0x03C ≠ 0x018 :=
  ⟨operating_areas 9#32, by decide +kernel, witness_WindowsKeepTheirForm.1, by decide +kernel, by decide⟩

/-- Every port has OPERATE only. -/
def operators : Device := setImage { testImage with roles := Vector.replicate 4 ⟨false, true, false, false⟩ } (operating 9#32)

/-- A part whose self-check failed, port A having posted. -/
def halted (code : Word) : Device := post .a code [] (after (.selfCheckEnd false) (resetDevice []))

theorem witness_EngineRefusesBeforeTheOwner :
    chosenPort (post .a 0x100#32 [] (operating 9#32)) = some .a ∧ postedCode (post .a 0x100#32 [] (operating 9#32)) .a = some 0x100#32
    ∧ commandOf 0x100#32 = none ∧ commandOf 0x604#32 = none ∧ commandOf 0x101#32 = some .bookSubmit
    ∧ chosenPort (post .d 0x101#32 [] operators) = some .d ∧ operators.cpi.status ≠ .halted
    ∧ permitted (rolesOf operators .d) .bookSubmit = false
    ∧ chosenPort (halted 0x603#32) = some .a ∧ (halted 0x603#32).cpi.status = .halted
    ∧ commandOf 0x603#32 = some .noticeClear := by decide +kernel

/-! ### Bookings -/

def submitting : Device := post .a 0x101#32 (submission [7, 12] 505800 513000 3600) busyVenue

theorem witness_SubmitAdmitsOrChangesNothing : Takes submitting .a .bookSubmit
    ∧ given (admitNew busyVenue (submitParameters (window submitting .a).params)) = some (2, 33, some 40)
    ∧ Takes (post .a 0x101#32 [] busyVenue) .a .bookSubmit
    ∧ denied (admitNew busyVenue (submitParameters (window (post .a 0x101#32 [] busyVenue) .a).params))
        = some ⟨.badParameter, some .venue, none⟩ := by decide +kernel

/-- Slot 0 holds, and its interval begins before the new one ends and ends after it begins. -/
theorem witness_AdmittedBookingConflictsWithNone :
    given (admitNew busyVenue (submitParameters (window submitting .a).params)) = some (2, 33, some 40)
    ∧ bookingAt busyVenue 0 = some place0 ∧ holds place0 = true
    ∧ 505800 - 600 < intervalEnd place0 ∧ intervalFirst place0 < 513000 + 3600 + busyVenue.csc.image.defaults.releaseGuard
    ∧ place0.protection = some 40
    ∧ 505800 - 600 ≤ 516659 ∧ 516659 < 513000 + 3600 + busyVenue.csc.image.defaults.releaseGuard := by decide +kernel

/-- An amendment of slot 0, generation 3, at network time `t`. -/
def amending (start : Nat) (t : Word) : Device :=
  post .b 0x102#32 ([u2 0x0003, u4 start, u4 (start + 7200), u2 600, u2 1800] ++ listField [u1 3] 1)
    { busyVenue with tb := { busyVenue.tb with time := t } }

theorem witness_AmendReadmitsPendingBooking : Takes (amending 503600 502999#32) .b .bookAmend
    ∧ bookingOf (amending 503600 502999#32) (handleParam (window (amending 503600 502999#32) .b).params 0) = some place0
    ∧ place0.state = .pending ∧ (502999#32 : Word).toNat < place0.start - place0.lead
    ∧ place0.start - place0.lead ≤ (503000#32 : Word).toNat
    ∧ given (readmit (amending 503700 502999#32) 0 place0 (amendParameters place0 (window (amending 503700 502999#32) .b).params))
        = some (33, some 40)
    ∧ denied (readmit (amending 503500 502999#32) 0 place0 (amendParameters place0 (window (amending 503500 502999#32) .b).params))
        = some ⟨.tooSoon, some .start, none⟩
    ∧ bookingOf busyVenue ⟨0, 2#8⟩ = none := by decide +kernel

/-- Slot 7 holds the semi-final in a state; port B has posted a command on handle (7, 2). -/
def onMatch (code : Word) (state : BookingState) : Device :=
  post .b code [u2 0x0702, u2 3000] (hold 7 2#8 { semiFinal with state := state } (operating 606300#32))

theorem onMatch_names (code : Word) (state : BookingState) :
    bookingAt (onMatch code state) 7 = some { semiFinal with state := state } := by
  simp [onMatch, post, hold, bookingAt, updSlot]

/-- `onMatch` with a metering record that has taken the boundary at `taken`, and a list of unbilled bookings. -/
def onMetered (code : Word) (state : BookingState) (taken : Word) (queue : List Snapshot) (waiting : List SlotId) : Device :=
  let d := onMatch code state
  setMeter 7 (some ⟨some 20, false, queue, taken, [{ freshRecipient with run := 1, meters := { noMeters with metered := 1 } },
    freshRecipient]⟩) { d with bkc := { d.bkc with unbilled := waiting } }

/-- A snapshot that a boundary taken ahead of a lagging BKC has given an ARMED booking (log entry 48). -/
def early : Snapshot := ⟨606299#32, some 33, false, [⟨true, false⟩, ⟨true, false⟩], none, none⟩

/-- R73, R171, R181: 30 minutes at 850 for each recipient, and a record without snapshots and meters. -/
theorem test_cancel_late :
    (after .bookCancel (onMetered 0x104#32 .armed 606300#32 [early] [])).bq.queue.map (fun r =>
        (r.serial, r.charge.net, r.charge.lateCancel, r.closeTime))
      = [(1#32, 25500, true, 606300), (2#32, 25500, true, 606300)]
    ∧ (after .bookCancel (onMetered 0x104#32 .armed 606300#32 [early] [3])).bq.queue = []
    ∧ ((after .bookCancel (onMetered 0x104#32 .armed 606300#32 [early] [3])).svm.records.get 7).map (fun m =>
        (m.node, m.queue, m.recipients)) = some (some 20, [], [freshRecipient, freshRecipient]) := by decide +kernel

/-- R67, R170, R176: with every second taken and applied, BOOK_END settles and charges 105 minutes at 850; with the boundary at
the close still to be taken, or a snapshot waiting, the booking is SETTLING. -/
theorem test_end_settles :
    (after .bookEnd (onMetered 0x103#32 .live 606300#32 [] [])).bq.queue.map (fun r => (r.charge.gross, r.charge.meters.severe))
      = [(89250, 1), (89250, 0)]
    ∧ ((bookingAt (after .bookEnd (onMetered 0x103#32 .live 606299#32 [] [])) 7).map fun b => b.state) = some .settling
    ∧ ((bookingAt (after .bookEnd (onMetered 0x103#32 .live 606300#32 [early] [])) 7).map fun b => b.state) = some .settling := by
  decide +kernel

theorem witness_EndClosesRunningBooking : Takes (onMatch 0x103#32 .live) .b .bookEnd
    ∧ handleParam (window (onMatch 0x103#32 .live) .b).params 0 = ⟨7, 2#8⟩
    ∧ bookingOf (onMatch 0x103#32 .live) ⟨7, 2#8⟩ = some { semiFinal with state := .live }
    ∧ bookingOf (onMatch 0x103#32 .armed) ⟨7, 2#8⟩ = some { semiFinal with state := .armed }
    ∧ bookingOf (onMatch 0x103#32 .unbilled) ⟨7, 2#8⟩ = some { semiFinal with state := .unbilled }
    ∧ bookingOf (onMatch 0x103#32 .live) ⟨7, 1#8⟩ = none
    ∧ Takes (onMetered 0x103#32 .live 606300#32 [] []) .b .bookEnd
    ∧ ((onMetered 0x103#32 .live 606300#32 [] []).svm.records.get 7).map (fun m => (m.taken, m.queue)) = some (606300#32, [])
    ∧ (onMatch 0x103#32 .live).svm.records.get 7 = none
    ∧ Takes (crowded false) .b .bookEnd ∧ FabricLaw (crowded false)
    ∧ (bookingOf (crowded false) ⟨7, 2#8⟩).map (fun b => (b.state, b.node)) = some (.live, some 40) := by
  simp only [crowded_fabric]
  decide +kernel

theorem witness_CancelFreesOrChargesLate : Takes (onMatch 0x104#32 .pending) .b .bookCancel
    ∧ bookingOf (onMatch 0x104#32 .pending) ⟨7, 2#8⟩ = some semiFinal
    ∧ bookingOf (onMatch 0x104#32 .armed) ⟨7, 2#8⟩ = some { semiFinal with state := .armed }
    ∧ bookingOf (onMatch 0x104#32 .overrun) ⟨7, 2#8⟩ = some { semiFinal with state := .overrun }
    ∧ bookingOf (onMatch 0x104#32 .settling) ⟨7, 2#8⟩ = some { semiFinal with state := .settling }
    ∧ TariffInRange semiFinal.tariff ∧ Takes (crowded true) .b .bookCancel ∧ FabricLaw (crowded true)
    ∧ (bookingOf (crowded true) ⟨7, 2#8⟩).map (fun b => (b.state, b.node)) = some (.armed, some 40) := by
  simp only [crowded_fabric, TariffInRange]
  decide +kernel

/-- The allowance of 3,000 is admitted; 1,799 is below the one held; 3,600 meets slot 11's port; 7,201 is out of range. -/
theorem witness_ExtendRaisesAllowance : Takes (onMatch 0x105#32 .overrun) .b .bookExtend
    ∧ bookingOf (onMatch 0x105#32 .overrun) ⟨7, 2#8⟩ = some { semiFinal with state := .overrun }
    ∧ param (window (onMatch 0x105#32 .overrun) .b).params 2 2 = 3000
    ∧ badAllowance (onMatch 0x105#32 .overrun) { semiFinal with state := .overrun } 3000 = false
    ∧ 1799 < semiFinal.allowance ∧ 7200 < 7201
    ∧ given (checkReservation (onMatch 0x105#32 .overrun) (some 7) 2 (.explicit 33) (.explicit 40) [5, 6] 599700 609360)
        = some (33, some 40)
    ∧ denied (checkReservation (overrunMatch 1800 607990#32) (some 7) 2 (.explicit 33) (.explicit 40) [5, 6] 599700 609960)
        = some ⟨.portConflict, some (.recipient 0), some ⟨11, 4#8⟩⟩ := by decide +kernel

theorem witness_ReadingCommandsChangeNothing : Takes (onMatch 0x106#32 .pending) .b .bookQuery
    ∧ Takes (post .a 0x501#32 [u2 0x0702] metered) .a .meterRead
    ∧ ((bookingOf metered ⟨7, 2#8⟩).map fun b => b.state) = some .live ∧ (metered.svm.records.get 7).isSome = true
    ∧ bookingOf metered ⟨7, 3#8⟩ = none
    ∧ Takes (post .a 0x202#32 [u1 8] (operating 9#32)) .a .configRead ∧ sectionOf 8 = some .defaults
    ∧ sectionOf 1 = some .venueMap ∧ sectionOf 0 = none ∧ sectionOf 9 = none := by decide +kernel

/-! ### The configuration -/

/-- CONFIG_WRITE of ROLES with the given role sets. -/
def rolesWrite (a b c e : Nat) : Device := post .a 0x201#32 [u1 3, u1 a, u1 b, u1 c, u1 e] (operating 9#32)

def rolesBody (d : Device) : List (Nat × Nat) := readFields windowBlank (window d .a).params 1 (sectionWidths .roles)

theorem witness_ConfigWriteReplacesSection : Takes (rolesWrite 8 1 2 4) .a .configWrite
    ∧ sectionOf (param (window (rolesWrite 8 1 2 4) .a).params 0 1) = some .roles
    ∧ (given (readSection .roles (rolesBody (rolesWrite 8 1 2 4)) testImage)).isSome = true
    ∧ inUse (rolesWrite 8 1 2 4) .roles testImage = none
    ∧ denied (readSection .roles (rolesBody (rolesWrite 7 1 2 4)) testImage) = some 1
    ∧ inUse busyVenue .venueMap factoryImage = some 4 ∧ sectionOf 9 = none
    ∧ Takes flapping .a .configWrite ∧ sectionOf (param (window flapping .a).params 0 1) = some .defaults
    ∧ (given (readSection .defaults (readFields windowBlank (window flapping .a).params 1 (sectionWidths .defaults))
        testImage)).isSome = true := by decide +kernel

/-- A save within its 400 ms, at its last instant and after it. -/
theorem witness_SaveHoldsTheEngineUntilItEnds : Takes (post .b 0x203#32 [] (operating 9#32)) .b .configSave
    ∧ saving.cpi.serving = some .b ∧ (saving.csc.writing.map fun w => w.started) = some 0 ∧ saving.tb.clock ≤ 0 + 400
    ∧ (answer .b (after (.configSaveEnd .verified) { saving with tb := { saving.tb with clock := 400 } })).1 = .done
    ∧ (answer .b (after (.configSaveEnd .verified) { saving with tb := { saving.tb with clock := 401 } })).1 = .failed
    ∧ (answer .b (after (.configSaveEnd (.differs [])) saving)).1 = .failed := by
  decide +kernel

theorem witness_RestartResetsUnlessInUse : Takes (post .a 0x204#32 [u1 0] settingUp) .a .deviceRestart
    ∧ param (window (post .a 0x204#32 [u1 0] settingUp) .a).params 0 1 = 0
    ∧ ((bookingAt settingUp 2).map fun b => b.state) = some .armed
    ∧ Takes (post .a 0x204#32 [u1 1] settingUp) .a .deviceRestart
    ∧ param (window (post .a 0x204#32 [u1 255] settingUp) .a).params 0 1 ≠ 0
    ∧ chosenPort (halted 0x204#32) = some .a ∧ (postedCode (halted 0x204#32) .a).bind commandOf = some .deviceRestart
    ∧ (halted 0x204#32).cpi.status = .halted := by decide +kernel

/-- A PROFILE_WRITE in the LEVELS form. -/
def levels (n : Nat) (warnLow alarmLow alarmHigh : Int) : Device :=
  post .c 0x205#32 [u1 0, u1 n, s2 warnLow, s2 alarmLow, s2 alarmHigh, u1 10, u1 3] (operating 9#32)

theorem witness_LineSettingsAreClampedAndStored : Takes (levels 3 (-179) (-180) (-178)) .c .profileWrite
    ∧ param (window (levels 3 (-179) (-180) (-178)) .c).params 0 1 = 0 ∧ param (window (levels 3 0 0 0) .c).params 1 1 = 3
    ∧ profileFault (clampProfile (-179) (-180) (-178) 10 3) = none
    ∧ profileFault (clampProfile (-180) (-180) (-178) 10 3) = some 0
    ∧ profileFault (clampProfile (-179) (-180) (-179) 10 3) = some 2
    ∧ Takes (levels 4 0 0 0) .c .profileWrite ∧ param (window (levels 4 0 0 0) .c).params 1 1 = 4
    ∧ Takes (post .c 0x205#32 [u1 1, u1 15, u1 3] (operating 9#32)) .c .profileWrite
    ∧ param (window (post .c 0x205#32 [u1 1, u1 15, u1 4] (operating 9#32)) .c).params 2 1 = 4
    ∧ Takes (post .c 0x206#32 [u1 15, s2 (-76)] (operating 9#32)) .c .calWrite
    ∧ Takes (post .c 0x206#32 [u1 16, s2 0] (operating 9#32)) .c .calWrite
    ∧ clampOffset (-76) = -75 ∧ clampOffset 4 = 0 := by decide +kernel

theorem witness_TariffAndActionAreStored : Takes (post .d 0x207#32 [u1 15] (operating 9#32)) .d .tariffWrite
    ∧ param (window (post .d 0x207#32 [u1 16] (operating 9#32)) .d).params 0 1 = 16
    ∧ Takes (post .c 0x401#32 [u1 2, u1 21, u1 0] (operating 9#32)) .c .actionWrite
    ∧ classRange 0 = some (0, 9) ∧ classRange 1 = some (9, 13) ∧ classRange 2 = some (13, 22) ∧ classRange 3 = none
    ∧ ¬(8 : Nat) < 0 ∧ (9 : Nat) ≤ 9 ∧ (8 : Nat) < 9 ∧ (22 : Nat) ≤ 22 ∧ actionOf 3 = none
    ∧ actionOf 2 = some .quarantine ∧ allowedAction 0 .quarantine = .quarantine ∧ allowedAction 1 .quarantine = .notify := by
  decide +kernel

/-! ### Fabric, protection and fault commands -/

/-- Port 12 is listed by the ARMED booking of slot 2, whose interval begins at 505,200; port 31 by none. -/
theorem witness_FabricCommandsChangeTheirEntries : Takes (post .c 0x301#32 [u1 31] settingUp) .c .portTest
    ∧ param (window (post .c 0x301#32 [u1 31] settingUp) .c).params 0 1 = (31 : HandoffPort).val
    ∧ testBlocker settingUp 31 = none ∧ testBlocker settingUp 12 = some ⟨2, 5#8⟩
    ∧ testBlocker { settingUp with tb := { settingUp.tb with time := 505199#32 } } 12 = none
    ∧ Takes (post .c 0x301#32 [u1 32] settingUp) .c .portTest ∧ Takes (post .c 0x302#32 [u1 0] settingUp) .c .portUntest
    ∧ Takes (post .c 0x303#32 [] settingUp) .c .fabricResync ∧ settingUp.fcu.inFlight.isSome = true := by decide +kernel

/-- The commands on slot 21, and on a booking whose state refuses them. -/
theorem witness_ManualProtectionCommands :
    (∀ x, bookingOf (onMatch 0x304#32 x) ⟨7, 2#8⟩ = some { semiFinal with state := x })
    ∧ Takes (post .c 0x304#32 [u2 0x1506] (protectedBooking .onWorking none)) .c .protForce
    ∧ Takes (post .c 0x305#32 [u2 0x1506] (protectedBooking .onWorking none)) .c .protLock
    ∧ Takes (post .c 0x306#32 [u2 0x1506] (protectedBooking .lockedWorking none)) .c .protClear
    ∧ handleParam (window (post .c 0x304#32 [u2 0x1506] (protectedBooking .onWorking none)) .c).params 0 = ⟨21, 6#8⟩
    ∧ bookingOf (protectedBooking .onWorking none) ⟨21, 5#8⟩ = none
    ∧ Takes (onMatch 0x304#32 .pending) .b .protForce ∧ Takes (onMatch 0x305#32 .settling) .b .protLock
    ∧ Takes (onMatch 0x306#32 .unbilled) .b .protClear :=
  ⟨fun x => by cases x <;> decide +kernel, by decide +kernel⟩

/-- Slot 21's selector in each state that a clause names; its lane free, held by it, or held by another. -/
theorem witness_ManualProtectionSelectors :
    ((bookingOf (protectedBooking .onWorking none) ⟨21, 6#8⟩).map running) = some true
    ∧ selectorAt (protectedBooking .onWorking none) 21 = some (selector ⟨21, 6#8⟩ .onWorking 72 (some 88) none)
    ∧ selectorAt (protectedBooking .unprotected none) 21 = some (selector ⟨21, 6#8⟩ .unprotected 72 (some 88) none)
    ∧ selectorAt (protectedBooking .forcedProtection none) 21 = some (selector ⟨21, 6#8⟩ .forcedProtection 72 (some 88) none)
    ∧ (lane (protectedBooking .onWorking none) 88).holder = none ∧ (lane (protectedBooking .onWorking none) 88).waiting = []
    ∧ laneFailed (protectedBooking .onWorking none) 88 = false ∧ laneFailed (timing true none) 88 = true
    ∧ freeFor (timing false (some ⟨22, 0#8⟩)) 88 ⟨21, 6#8⟩ = false := by decide +kernel

/-- Slot 21 locked or forced, with its working lane 72, its protection lane 88 or the trunk of the latter out of service, and
its hold-off and WTR as given. -/
def clearing21 (state : SelectorState) (working protection quarantine : Bool) (holdOff wtr : Nat) : Device :=
  let d := protectedBooking state none
  let d := updBooking 21 (fun b => { b with holdOff := some holdOff, wtr := some wtr }) d
  post .c 0x306#32 [u2 0x1506] { d with psu := { d.psu with
    failed := ((Vector.replicate 128 false).set 72 working).set 88 protection
    quarantined := (Vector.replicate 16 false).set 11 quarantine } }

/-- The state that PROT_CLEAR leaves, and its timer. -/
def cleared (d : Device) : Option (SelectorState × Option SelectorTimer × Bool) :=
  (selectorAt (after .protClear d) 21).map fun x => (x.state, x.timer, x.bothFailed)

/-- The rows of R116 for a lock with a failed working port. -/
theorem test_clear_lock_rows :
    cleared (clearing21 .lockedWorking true false false 50 300) = some (.holdOff, some ⟨.holdOff, 50⟩, false)
    ∧ cleared (clearing21 .lockedWorking true true false 0 300) = some (.onWorking, none, true)
    ∧ cleared (clearing21 .lockedWorking true false false 0 300) = some (.onProtection, none, false) := by decide +kernel

/-- The rows of R116 for a force with a usable protection lane, and R103's length of 0. -/
theorem test_clear_force_rows :
    cleared (clearing21 .forcedProtection true false false 50 300) = some (.onProtection, none, false)
    ∧ cleared (clearing21 .forcedProtection false false false 50 0) = some (.onProtection, none, false)
    ∧ cleared (clearing21 .forcedProtection false false false 50 1)
        = some (.waitRestore, some ⟨.waitToRestore, 1000⟩, false) := by decide +kernel

/-- The rows of R116 for a force with a failed protection lane. -/
theorem test_clear_failed_force_rows :
    cleared (clearing21 .forcedProtection true true false 50 300) = some (.onProtection, none, true)
    ∧ cleared (clearing21 .forcedProtection false true true 50 300) = some (.onWorking, none, false)
    ∧ cleared (clearing21 .forcedProtection false true false 10 300) = some (.onProtection, some ⟨.returnTimer, 10⟩, false)
    ∧ cleared (clearing21 .forcedProtection false true false 0 300) = some (.onWorking, none, false) := by decide +kernel

theorem witness_QuarantineAndRelease : Takes (post .c 0x402#32 [u1 15] (operating 9#32)) .c .trunkQuarantine
    ∧ Takes (post .c 0x403#32 [u1 9] cut) .c .trunkRelease ∧ LineRecordLaw (post .c 0x403#32 [u1 9] cut)
    ∧ ((operating 9#32).fra.trunks.get 15).service = .normal
    ∧ Takes (post .c 0x403#32 [u1 16] (operating 9#32)) .c .trunkRelease := by
  unfold LineRecordLaw; decide +kernel

theorem witness_TargetCommandsChangeTheirRecords :
    Takes (post .c 0x404#32 [u1 1, u1 7, u4 0x3FFFFF] (operating 9#32)) .c .faultClear
    ∧ given (targetOf (operating 9#32) (window (post .c 0x404#32 [u1 1, u1 7, u4 0x3FFFFF] (operating 9#32)) .c).params)
        = some (List.finRange 49)
    ∧ sourceSetOf (window (post .c 0x404#32 [u1 1, u1 7, u4 0x3FFFFF] (operating 9#32)) .c).params 4 = some 0x3FFFFF#22
    ∧ Takes (post .c 0x405#32 [u1 0, u1 2, u1 0, u4 0] (operating 9#32)) .c .maskSet
    ∧ Takes (post .c 0x406#32 [u1 0, u1 2, u1 0, u4 0] (operating 9#32)) .c .maskClear
    ∧ Takes (post .c 0x407#32 [u1 0, u1 2, u1 0, u4 0] (operating 9#32)) .c .maskWrite
    ∧ Takes (post .c 0x408#32 [u1 1, u1 31, u1 0x0F] (operating 9#32)) .c .groupWrite
    ∧ given (recordOf 1 31) = some 47 ∧ denied (recordOf 1 32) = some 1 ∧ denied (recordOf 3 0) = some 0 ∧ groupCount 0x0F = 4
    ∧ groupCount 0x1F = 5 ∧ 128 ≤ 0x80
    ∧ denied (targetOf (operating 9#32) (window (post .c 0x404#32 [u1 2, u1 0, u4 0] (operating 9#32)) .c).params) = some 0
    ∧ denied (targetOf (operating 9#32) (window (post .c 0x404#32 [u1 0, u1 1, u1 32, u4 0] (operating 9#32)) .c).params) = some 2
    ∧ denied (targetOf (operating 9#32) (window (post .c 0x404#32 [u1 1, u1 8, u4 0] (operating 9#32)) .c).params) = some 1
    ∧ sourceSetOf (window (post .c 0x404#32 [u1 1, u1 7, u4 0x400000] (operating 9#32)) .c).params 4 = none := by decide +kernel

/-! ### Metering, charging, tables, notices -/

/-- A ready snapshot with no lane, and one with its lane's grade; runs of 8 and 9 seconds stand on both sides of the change. -/
theorem witness_RecipientSecondIsGraded : ready severeSecond = true
    ∧ ready ⟨802700#32, some 88, true, [], none, some ⟨.clean, false⟩⟩ = true
    ∧ (gradeRecipient 803700 severeSecond ⟨true, false⟩ { freshRecipient with run := 8 }).availability = .available
    ∧ (gradeRecipient 803700 severeSecond ⟨true, false⟩ { freshRecipient with run := 9 }).availability = .unavailable
    ∧ severeSecond.lane = none ∧ 801209 ≤ severeSecond.second.toNat ∧ severeSecond.second.toNat < 801210 := by
  decide

/-- The shortest and the longest booking, with no overrun and the longest one. -/
theorem witness_ChargeIsComputedExactly : TariffInRange ⟨65535, 400, 300, 100, 240, 3600⟩ ∧ 0 + 60 ≤ 60 ∧ 43200 ≤ 0 + 43200
    ∧ noMeters.overrun ≤ 7200 ∧ (normalCharge { booking .settling 33 none [5] 0 43200 0 7200 with
        tariff := ⟨65535, 400, 300, 100, 240, 3600⟩ } { freshRecipient with meters := { noMeters with overrun := 7200 } }).gross
        = 78642000 := by
  unfold TariffInRange; decide

/-- `oneRecord`, with the UNBILLED booking of slot 4 waiting. -/
def oneWaiting : Device :=
  let b := { booking .unbilled 33 (some 41) [12] 496000 503200 600 3600 with charges := [lateCharge semiFinal] }
  let d := hold 4 1#8 b oneRecord
  { d with bkc := { d.bkc with unbilled := [4] } }

theorem oneWaiting_law : UnbilledLaw oneWaiting := by
  refine ⟨by decide, fun i => ?_⟩
  revert i; decide +kernel

/-- R187, R184: the release makes room, and slot 4's record stands at the tail under serial 42. -/
theorem test_release_places : ((after .billRelease (post .d 0x503#32 [u4 41] oneWaiting)).bq.queue.map fun x =>
      (x.serial, x.handle.slot, x.port)) = [(42#32, 4, 12)]
    ∧ (after .billRelease (post .d 0x503#32 [u4 41] oneWaiting)).bkc.slots.get 4 = ⟨2#8, none⟩
    ∧ response .d 5 (after .billRelease (post .d 0x503#32 [u4 41] oneWaiting)) = [0#8, 1#8, 0#8, 0#8, 0#8] := by decide +kernel

theorem witness_BillsAreFetchedAndReleased : UnbilledLaw oneWaiting ∧ oneWaiting.bq.queue.length = 1
    ∧ Takes (post .d 0x503#32 [u4 41] oneWaiting) .d .billRelease ∧ Takes (post .d 0x502#32 [u1 8] oneRecord) .d .billFetch
    ∧ param (window (post .d 0x502#32 [u1 8] oneRecord) .d).params 0 1 = 8
    ∧ param (window (post .d 0x502#32 [u1 9] oneRecord) .d).params 0 1 = 9 ∧ oneRecord.bq.queue.length = 1
    ∧ (operating 9#32).bq.queue = [] ∧ Takes (post .d 0x503#32 [u4 41] oneRecord) .d .billRelease
    ∧ (BitVec.ofNat 32 (param (window (post .d 0x503#32 [u4 41] oneRecord) .d).params 0 4) - 41#32).toNat < 1
    ∧ 1 ≤ (BitVec.ofNat 32 (param (window (post .d 0x503#32 [u4 42] oneRecord) .d).params 0 4) - 41#32).toNat
    ∧ oneRecord.bkc.unbilled = [] := ⟨oneWaiting_law, by decide +kernel⟩

theorem witness_TableReadsMoveTheCursor : Takes (post .a 0x601#32 [u1 8, u2 255, u1 1] (operating 9#32)) .a .tableRead
    ∧ tableOf 8 = some .unbilled ∧ tableOf 0 = none ∧ tableOf 9 = none ∧ 255 < tableRange .unbilled ∧ tableRange .faults ≤ 49
    ∧ Takes (post .a 0x602#32 [u1 1] (operating 9#32)) .a .tableNext ∧ (window (operating 9#32) .a).cursor = none
    ∧ (window (after .tableRead (post .a 0x601#32 [u1 6, u2 0, u1 15] (operating 9#32))) .a).cursor = some ⟨.tariffs, some 15⟩
    ∧ (window (after .tableRead (post .a 0x601#32 [u1 6, u2 0, u1 16] (operating 9#32))) .a).cursor = some ⟨.tariffs, none⟩ := by
  decide +kernel

theorem witness_NoticeClearRemovesNamedFlags : Takes (post .a 0x603#32 [u1 0x0A] (operating 9#32)) .a .noticeClear := by
  decide +kernel

end Sys2Proof.Tests
end

section
/-! PROOF. What a refused unit does: a frame that fails the checks of R126 is discarded, and a reply that is not the reply to
the order in flight is a stray reply (R93). Both come down to one latch on the device record. -/

namespace Sys2Proof.Machine

/-! ### A latch, and nothing else -/

/-- The event source `src` is latched on record `r`, and nothing else of the device changes. -/
def OnlyLatches (r : Fin 49) (src : SourceSet) (d d' : Device) : Prop :=
  OnlyChanges [.fra] d d' ∧ d'.fra.trunks = d.fra.trunks ∧ OtherRecordsKept r d d'
    ∧ record d' r = { record d r with latched := (record d r).latched ||| src }

theorem latch_onlyLatches (r : Fin 49) (src : SourceSet) (d : Device) : OnlyLatches r src d (latch r src d) := by
  obtain ⟨honly, -⟩ := latch_quiet r src d
  refine ⟨honly, updRecord_trunks r _ d, fun q hq => ?_, ?_⟩
  · exact (record_updRecord r q _ d).trans (if_neg hq)
  · exact (record_updRecord r r _ d).trans (if_pos rfl)

/-! ### Frames that fail the checks (R125, R126) -/

theorem asFin_eq_none {n v : Nat} (h : n ≤ v) : asFin n v = none := dif_neg (Nat.not_lt.mpr h)

theorem receiveFrame_of_not_monitoring {d : Device} (h : d.lmn.monitoring = false) (f : Option LslFrame) :
    receiveFrame f d = d := by
  simp [receiveFrame, h]

theorem receiveFrame_none_of_monitoring {d : Device} (h : d.lmn.monitoring = true) :
    receiveFrame none d = latch deviceRecord srcLslFrameError d := by
  simp [receiveFrame, h]

theorem exec_lslFrameDiscard_refused {unit : List Byte} (h : lslFrame unit = none) (s : State) :
    exec (.lslFrameDiscard unit) s = onDevice (receiveFrame none) s := by
  rw [← h]; rfl

theorem exec_alarmFrame_refused {t : Byte} (h : 16 ≤ t.toNat) (los : Bool) (fl up : LaneSet) (s : State) :
    exec (.alarmFrame t los fl up) s = onDevice (receiveFrame none) s := by
  change execAlarmFrame t los fl up s = _
  rw [execAlarmFrame, asFin_eq_none h, Option.map_none]

theorem exec_secondFrame_refused {t : Byte} (h : 16 ≤ t.toNat) (label : Byte) (lanes : Vector LaneReport 8) (s : State) :
    exec (.secondFrame t label lanes) s = onDevice (receiveFrame none) s := by
  change execSecondFrame t label lanes s = _
  rw [execSecondFrame, asFin_eq_none h, Option.map_none]

theorem exec_powerFrame_refused {t : Byte} (h : 16 ≤ t.toNat) (raw : BitVec 16) (valid : Bool) (s : State) :
    exec (.powerFrame t raw valid) s = onDevice (receiveFrame none) s := by
  change execPowerFrame t raw valid s = _
  rw [execPowerFrame, asFin_eq_none h, Option.map_none]

theorem exec_portstatFrame_refused {p : Byte} (h : 32 ≤ p.toNat) (tx far : Bool) (s : State) :
    exec (.portstatFrame p tx far) s = onDevice (receiveFrame none) s := by
  change execPortstatFrame p tx far s = _
  rw [execPortstatFrame, asFin_eq_none h, Option.map_none]

/-! ### Replies to no order in flight (R93) -/

theorem orderWithTag_eq_none {tag : Byte} {d : Device} (h : ∀ o, d.fcu.inFlight = some o → o.tag ≠ tag) :
    orderWithTag tag d = none := by
  simpa [orderWithTag, Option.filter_eq_none_iff] using h

theorem fabricAck_stray {tag : Byte} {d : Device} (h : ∀ o, d.fcu.inFlight = some o → o.tag ≠ tag) :
    fabricAck tag d = strayReply d := by
  rw [fabricAck, orderWithTag_eq_none h]

theorem fabricNak_stray {tag : Byte} {d : Device} (h : ∀ o, d.fcu.inFlight = some o → o.tag ≠ tag) (reason : Byte) :
    fabricNak tag reason d = strayReply d := by
  rw [fabricNak, orderWithTag_eq_none h]

theorem folReceive_not_admitted {reply : List Byte} (h : folReply reply = none) (d : Device) :
    folReceive reply d = strayReply d := by
  rw [folReceive, h]

theorem strayReply_onlyLatches (d : Device) : OnlyLatches deviceRecord srcFabricProtocol d (strayReply d) :=
  latch_onlyLatches deviceRecord srcFabricProtocol d

/-! ### The statement -/

/-- Settles O29. Each refused frame is received as no frame at all; each refused reply is a stray reply. -/
theorem refusedUnitsOnlyLatch : Obligations.RefusedUnitsOnlyLatch := by
  intro s c
  refine ⟨fun hframe => ?_, fun hreply => ?_⟩
  · have hexec : exec c s = onDevice (receiveFrame none) s := by
      obtain ⟨unit, rfl, h⟩ | ⟨t, los, fl, up, rfl, h⟩ | ⟨t, label, lanes, rfl, h⟩ | ⟨t, raw, valid, rfl, h⟩
        | ⟨p, tx, far, rfl, h⟩ := hframe
      · exact exec_lslFrameDiscard_refused h s
      · exact exec_alarmFrame_refused h los fl up s
      · exact exec_secondFrame_refused h label lanes s
      · exact exec_powerFrame_refused h raw valid s
      · exact exec_portstatFrame_refused h tx far s
    refine ⟨receiveFrame none s.dev, answers_of_onDevice hexec, fun hm => receiveFrame_of_not_monitoring hm none,
      fun hm => ?_⟩
    rw [receiveFrame_none_of_monitoring hm]
    exact latch_onlyLatches deviceRecord srcLslFrameError s.dev
  · refine ⟨strayReply s.dev, ?_, strayReply_onlyLatches s.dev⟩
    obtain ⟨tag, rfl, h⟩ | ⟨tag, reason, rfl, h⟩ | ⟨reply, rfl, h⟩ := hreply
    · rw [← fabricAck_stray h]
      exact answers_of_onDevice (f := fabricAck tag) rfl
    · rw [← fabricNak_stray h reason]
      exact answers_of_onDevice (f := fabricNak tag reason) rfl
    · rw [← folReceive_not_admitted h s.dev]
      exact answers_of_onDevice (f := folReceive reply) rfl

end Sys2Proof.Machine
end

section
/-! PROOF. NOTICE_CLEAR (R158): the completion that sets COMMAND, and after it the removal of the named sticky flags from the
posting port's window, which leaves all that the completion answered. -/

namespace Sys2Proof.Machine

/-! ### The removal of sticky flags -/

/-- Removes the flags in `named` from a port's sticky flags. -/
def removeSticky (p : PortId) (named : NoticeSet) (d : Device) : Device :=
  updWindow p (fun w => { w with sticky := w.sticky &&& ~~~named }) d

@[simp] theorem removeSticky_window_same (p : PortId) (named : NoticeSet) (d : Device) :
    window (removeSticky p named d) p = { window d p with sticky := (window d p).sticky &&& ~~~named } :=
  window_updWindow_same p _ d

theorem removeSticky_window_ne {p q : PortId} (h : q ≠ p) (named : NoticeSet) (d : Device) :
    window (removeSticky p named d) q = window d q := window_updWindow_ne h _ d

@[simp] theorem removeSticky_fra (p : PortId) (named : NoticeSet) (d : Device) : (removeSticky p named d).fra = d.fra := rfl

theorem removeSticky_only (p : PortId) (named : NoticeSet) (d : Device) : OnlyChanges [.cpi] d (removeSticky p named d) := by
  intro b hb
  cases b with
  | cpi => exact absurd (List.mem_singleton.mpr rfl) hb
  | tb | owed | csc | bkc | psu | fcu | lmn | fra | svm | bq => rfl

/-- An answered command stays answered: a removal of flags touches no part of the answer. -/
theorem removeSticky_answered {p : PortId} {r : Reply} {d d' : Device} (named : NoticeSet) (h : Answered p r d d') :
    Answered p r d (removeSticky p named d') := by
  obtain ⟨hcommand, hcode, hresult, hfield, hresponse, hparams, henable, hothers, hengine⟩ := h
  refine ⟨?_, ?_, ?_, ?_, ?_, ?_, ?_, fun q hq => ?_, hengine⟩
  case refine_8 => rw [removeSticky_window_ne hq]; exact hothers q hq
  all_goals rw [removeSticky_window_same]; assumption

/-! ### Named flags and level classes -/

/-- The level classes follow the fault records alone (R156). -/
theorem levelClasses_of_fra {d d' : Device} (h : d'.fra = d.fra) : levelClasses d' = levelClasses d := by
  unfold levelClasses levelIn record
  rw [h]

/-- A sticky class is named by its bit of the parameter (R203). -/
theorem namedFlags_getLsbD (w : Window) {i : Nat} (h : i < 4) :
    (namedFlags w).getLsbD i = (param w.params 0 1).testBit i := by
  have hsticky : (0x0F#7).getLsbD i = true := by
    revert i; decide
  have hwidth : i < 7 := by omega
  rw [namedFlags, BitVec.getLsbD_and, hsticky, Bool.and_true, BitVec.getLsbD_ofNat, decide_eq_true hwidth, Bool.true_and]

theorem commandNotice_getLsbD {i : Nat} (h : i < 4) : commandNotice.getLsbD i = decide (i = 3) := by
  revert i; decide

/-- COMMAND is set before the named flags go, so that naming COMMAND leaves it clear (R158). -/
theorem sticky_after_clear_getLsbD (x : NoticeSet) (w : Window) {i : Nat} (h : i < 4) :
    ((x ||| commandNotice) &&& ~~~namedFlags w).getLsbD i
      = ((x.getLsbD i || decide (i = 3)) && !(param w.params 0 1).testBit i) := by
  have hwidth : i < 7 := by omega
  rw [BitVec.getLsbD_and, BitVec.getLsbD_or, BitVec.getLsbD_not, commandNotice_getLsbD h, namedFlags_getLsbD w h,
    decide_eq_true hwidth, Bool.true_and]

/-! ### The completion of NOTICE_CLEAR -/

/-- The posting port's sticky flags after NOTICE_CLEAR. -/
theorem noticeClear_sticky (p : PortId) (d : Device) : (window (noticeClear p d) p).sticky
    = ((window d p).sticky ||| commandNotice) &&& ~~~namedFlags (window d p) := by
  rw [noticeClear, window_updWindow_same, complete_window_same]

theorem noticeClear_levelClasses (p : PortId) (d : Device) : levelClasses (noticeClear p d) = levelClasses d :=
  levelClasses_of_fra rfl

/-- The posting port's notice word after NOTICE_CLEAR. -/
theorem noticeClear_noticeWord (p : PortId) (d : Device) : noticeWord (noticeClear p d) p
    = (((window d p).sticky ||| commandNotice) &&& ~~~namedFlags (window d p) ||| levelClasses d) &&& (window d p).enable := by
  have henable : (window (noticeClear p d) p).enable = (window d p).enable := by
    rw [noticeClear, window_updWindow_same, complete_window_same]
  rw [noticeWord, noticeClear_sticky, noticeClear_levelClasses, henable]

/-- The answer of NOTICE_CLEAR: the sticky flags and the notice word after the command. -/
def noticeClearReply (p : PortId) (d : Device) : Reply :=
  doneReply [u1 (window (noticeClear p d) p).sticky.toNat, u1 (noticeWord (noticeClear p d) p).toNat]

/-- NOTICE_CLEAR completes with the flags and the word that it leaves, and the removal follows the completion. -/
theorem noticeClear_eq (p : PortId) (d : Device) :
    noticeClear p d = removeSticky p (namedFlags (window d p)) (complete p (noticeClearReply p d) d) := by
  rw [noticeClearReply, noticeClear_sticky, noticeClear_noticeWord]
  rfl

theorem noticeClear_only (p : PortId) (d : Device) : OnlyChanges [.cpi] d (noticeClear p d) := by
  rw [noticeClear_eq]
  exact onlyChanges_trans (complete_only p _ d) (removeSticky_only p _ _)

theorem noticeClear_window_ne {p q : PortId} (h : q ≠ p) (d : Device) : window (noticeClear p d) q = window d q := by
  rw [noticeClear_eq, removeSticky_window_ne h, complete_window_ne h]

theorem noticeClear_cursorKept (p : PortId) (d : Device) : CursorKept p d (noticeClear p d) := by
  rw [CursorKept, noticeClear_eq, removeSticky_window_same, complete_window_same]

/-- A NOTICE_CLEAR that the engine has taken is answered. -/
theorem noticeClear_answered {p : PortId} {code : Word} {d : Device} (hcode : postedCode d p = some code) :
    Answered p (noticeClearReply p (takeCommand p code d)) d (noticeClear p (takeCommand p code d)) := by
  rw [noticeClear_eq]
  refine removeSticky_answered _ (answered_complete _ hcode ⟨_, _, rfl⟩ (fun q hq => ?_) rfl rfl rfl rfl)
  exact ⟨_, takeCommand_window_ne hq code d⟩

/-! ### The statement -/

/-- Settles O60. The engine's take leaves the flags, the parameters and the cursor for the completion to read. -/
theorem noticeClearRemovesNamedFlags : Obligations.NoticeClearRemovesNamedFlags := by
  intro s p htakes
  obtain ⟨code, hcode, -, hengage⟩ := engage_takes noticeClear htakes
  have hanswers : Answers .noticeClear s (engage .noticeClear noticeClear s.dev) := answers_of_onDevice rfl
  rw [hengage] at hanswers
  refine ⟨noticeClear p (takeCommand p code s.dev), hanswers, ?_, noticeClear_answered hcode, ?_, fun q hq => ?_,
    fun i hi => ?_, ?_⟩
  · exact onlyChanges_trans (takeCommand_only p code s.dev) (noticeClear_only p _)
  · exact (noticeClear_cursorKept p _).trans (by rw [takeCommand_window_same])
  · rw [noticeClear_window_ne hq, takeCommand_window_ne hq]
  · rw [noticeClear_sticky, sticky_after_clear_getLsbD _ _ hi, takeCommand_window_same]
  · rw [noticeClear_levelClasses, levelClasses_of_fra (takeCommand_fra p code s.dev)]

end Sys2Proof.Machine
end

section
/-! PROOF. A recipient's second, when its snapshot is applied: the grade (R166), what grading counts (R167), and what the
availability state does with the grade (R168, R169). Grading first counts the second, then lets the availability state take its
grade, so each rule is a lemma about one of the two. -/

namespace Sys2Proof.Machine

/-! ### The grade (R166) -/

/-- The first case of R166. -/
theorem recipientGrade_eq_severe {x : Snapshot} {v : RecipientView}
    (h : v.connected = false ∨ x.lane = none ∨ v.txFault = true) : recipientGrade x v = .severe :=
  if_pos (by simpa [or_assoc] using h)

/-- The second and third cases of R166: a connected recipient takes its lane's grade, CLEAN raised in a switch-hit second. -/
theorem recipientGrade_of_lane {x : Snapshot} {v : RecipientView} {lg : LaneGrade} (hgraded : x.graded = some lg)
    (hconnected : v.connected = true) (hlane : x.lane ≠ none) (hfault : v.txFault = false) :
    recipientGrade x v = if lg.grade = .clean ∧ x.switchHit = true then .errored else lg.grade := by
  have hdelivered : x.lane.isNone = false :=
    Option.isNone_eq_false_iff.mpr (Option.isSome_iff_ne_none.mpr hlane)
  simp only [recipientGrade, hgraded, hconnected, hdelivered, hfault, Option.map_some, Option.getD_some]
  cases lg.grade <;> simp

/-! ### The count of a second (R167) -/

/-- The record in which a second is counted and named as the last graded one, before its availability state takes the grade. -/
def countSecond (plannedEnd : Nat) (x : Snapshot) (v : RecipientView) (r : RecipientMeter) : RecipientMeter :=
  { r with
    meters := { r.meters with
      metered := r.meters.metered + 1
      overrun := r.meters.overrun + (if plannedEnd ≤ x.second.toNat then 1 else 0)
      unmonitored := r.meters.unmonitored
        + (if (x.lane.isSome && (x.graded.map fun y => y.unmonitored).getD false) = true then 1 else 0) }
    connectedSeen := r.connectedSeen || v.connected
    last := some ⟨x.second, recipientGrade x v, x.defect⟩ }

theorem gradeRecipient_eq_takeGrade (plannedEnd : Nat) (x : Snapshot) (v : RecipientView) (r : RecipientMeter) :
    gradeRecipient plannedEnd x v r = takeGrade (recipientGrade x v) (countSecond plannedEnd x v r) := rfl

theorem countSecond_overrun_of_le {plannedEnd : Nat} {x : Snapshot} (h : plannedEnd ≤ x.second.toNat) (v : RecipientView)
    (r : RecipientMeter) : (countSecond plannedEnd x v r).meters.overrun = r.meters.overrun + 1 :=
  congrArg (r.meters.overrun + ·) (if_pos h)

theorem countSecond_overrun_of_lt {plannedEnd : Nat} {x : Snapshot} (h : x.second.toNat < plannedEnd) (v : RecipientView)
    (r : RecipientMeter) : (countSecond plannedEnd x v r).meters.overrun = r.meters.overrun :=
  congrArg (r.meters.overrun + ·) (if_neg (Nat.not_le.mpr h))

/-- A delivered lane's unmonitored mark counts. -/
theorem countSecond_unmonitored_of_graded {x : Snapshot} {lg : LaneGrade} (hgraded : x.graded = some lg)
    (hlane : x.lane ≠ none) (plannedEnd : Nat) (v : RecipientView) (r : RecipientMeter) :
    (countSecond plannedEnd x v r).meters.unmonitored
      = r.meters.unmonitored + (if lg.unmonitored = true then 1 else 0) := by
  have hdelivered : x.lane.isSome = true := Option.isSome_iff_ne_none.mpr hlane
  simp only [countSecond, hgraded, hdelivered, Bool.true_and, Option.map_some, Option.getD_some]

theorem countSecond_unmonitored_of_no_lane {x : Snapshot} (h : x.lane = none) (plannedEnd : Nat) (v : RecipientView)
    (r : RecipientMeter) : (countSecond plannedEnd x v r).meters.unmonitored = r.meters.unmonitored := by
  simp [countSecond, h]

/-! ### Booking by grades -/

/-- A broken severe run of `k` seconds is booked as severe, the second that breaks it by its own grade (R168). -/
theorem bookGrade_bookSevere_books {g : Grade} (hg : g ≠ .severe) (k : Nat) (m : Meters) :
    Books m (bookGrade g (bookSevere k m)) (one g .clean) (one g .errored) k 0 (one g .source) := by
  cases g with
  | severe => exact absurd rfl hg
  | clean | errored | source => exact ⟨rfl, rfl, rfl, rfl, rfl⟩

/-- A recovery run is booked by its own grades (R169). -/
theorem bookRecovery_books (clean errored source : Nat) (m : Meters) :
    Books m (bookSource source (bookErrored errored (bookClean clean m))) clean errored 0 0 source :=
  ⟨rfl, rfl, rfl, rfl, rfl⟩

theorem bookUnavailable_books (k : Nat) (m : Meters) : Books m (bookUnavailable k m) 0 0 0 k 0 :=
  ⟨rfl, rfl, rfl, rfl, rfl⟩

/-! ### AVAILABLE takes a grade (R168) -/

section
variable (r : RecipientMeter) (h : r.availability = .available)
include h

theorem takeGrade_available_severe (hrun : r.run + 1 ≠ 10) : takeGrade .severe r = { r with run := r.run + 1 } := by
  simp only [takeGrade, h, takeAvailable, if_neg hrun]

theorem takeGrade_available_tenth_severe (hrun : r.run + 1 = 10) :
    takeGrade .severe r = { emptyRun r with availability := .unavailable, meters := bookUnavailable 10 r.meters } := by
  simp only [takeGrade, h, takeAvailable, if_pos hrun]

theorem takeGrade_available_other {g : Grade} (hg : g ≠ .severe) :
    takeGrade g r = { emptyRun r with meters := bookGrade g (bookSevere r.run r.meters) } := by
  simp only [takeGrade, h]
  cases g with
  | severe => exact absurd rfl hg
  | clean | errored | source => rfl

end

/-! ### UNAVAILABLE takes a grade (R169) -/

/-- A second that is not SEVERE joins the recovery run and the run's count of its own grade. -/
theorem extendRun_eq {g : Grade} (hg : g ≠ .severe) (r : RecipientMeter) :
    extendRun g r = { r with
      run := r.run + 1
      runClean := r.runClean + one g .clean
      runErrored := r.runErrored + one g .errored
      runSource := r.runSource + one g .source } := by
  cases g with
  | severe => exact absurd rfl hg
  | clean | errored | source => rfl

section
variable (r : RecipientMeter) (h : r.availability = .unavailable)
include h

theorem takeGrade_unavailable_severe :
    takeGrade .severe r = { emptyRun r with meters := bookUnavailable (r.run + 1) r.meters } := by
  simp only [takeGrade, h, takeUnavailable]

/-- The recovery run settles at 10 and otherwise stays pending. -/
theorem takeGrade_unavailable_other {g : Grade} (hg : g ≠ .severe) :
    takeGrade g r = if (extendRun g r).run = 10 then
        { emptyRun (extendRun g r) with
          availability := .available
          meters := bookSource (extendRun g r).runSource
            (bookErrored (extendRun g r).runErrored (bookClean (extendRun g r).runClean (extendRun g r).meters)) }
      else extendRun g r := by
  simp only [takeGrade, h]
  cases g with
  | severe => exact absurd rfl hg
  | clean | errored | source => rfl

theorem takeGrade_unavailable_pending {g : Grade} (hg : g ≠ .severe) (hrun : r.run + 1 ≠ 10) :
    takeGrade g r = extendRun g r := by
  rw [takeGrade_unavailable_other r h hg, if_neg (by rwa [extendRun_eq hg])]

theorem takeGrade_unavailable_tenth {g : Grade} (hg : g ≠ .severe) (hrun : r.run + 1 = 10) :
    takeGrade g r = { emptyRun r with
      availability := .available
      meters := bookSource (r.runSource + one g .source)
        (bookErrored (r.runErrored + one g .errored) (bookClean (r.runClean + one g .clean) r.meters)) } := by
  rw [takeGrade_unavailable_other r h hg, extendRun_eq hg, if_pos hrun]
  rfl

end

/-! ### The statement -/

/-- Settles O56. The counted second keeps the run, the availability and the five booked meters for the availability state, which
leaves in its turn what was counted. -/
theorem recipientSecondIsGraded : Obligations.RecipientSecondIsGraded := by
  intro x v r plannedEnd _
  simp only [gradeRecipient_eq_takeGrade]
  obtain ⟨hmetered, hoverrun, hunmonitored, hseen, hlast⟩ :=
    takeGrade_leaves (recipientGrade x v) (countSecond plannedEnd x v r)
  refine ⟨⟨x.second, recipientGrade x v, x.defect⟩, hlast, rfl, rfl, hmetered,
    fun h => hoverrun.trans (countSecond_overrun_of_le h v r), fun h => hoverrun.trans (countSecond_overrun_of_lt h v r),
    fun lg hgraded hlane => hunmonitored.trans (countSecond_unmonitored_of_graded hgraded hlane plannedEnd v r),
    fun h => hunmonitored.trans (countSecond_unmonitored_of_no_lane h plannedEnd v r), ?seen, recipientGrade_eq_severe,
    fun lg hgraded hconnected hlane hfault => ?laneGrade, ?_⟩
  case seen => rw [hseen]; exact Bool.or_eq_true_iff
  case laneGrade =>
    rw [recipientGrade_of_lane hgraded hconnected hlane hfault]
    exact ⟨fun hclean hhit => if_pos ⟨hclean, hhit⟩, fun hother => if_neg hother⟩
  dsimp only
  generalize recipientGrade x v = g
  refine ⟨?severe, ?tenthSevere, ?other, ?recovers, ?tenth, ?stays⟩
  case severe =>
    rintro h rfl hrun
    rw [takeGrade_available_severe (countSecond plannedEnd x v r) h (Nat.ne_of_lt hrun)]
    exact ⟨h, rfl, rfl, rfl, rfl, rfl, rfl⟩
  case tenthSevere =>
    rintro h rfl hrun
    rw [takeGrade_available_tenth_severe (countSecond plannedEnd x v r) h hrun]
    exact ⟨rfl, rfl, rfl, rfl, rfl, bookUnavailable_books 10 _⟩
  case other =>
    intro h hg
    rw [takeGrade_available_other (countSecond plannedEnd x v r) h hg]
    exact ⟨h, rfl, bookGrade_bookSevere_books hg r.run _⟩
  case recovers =>
    intro h hg hrun
    rw [takeGrade_unavailable_pending (countSecond plannedEnd x v r) h hg (Nat.ne_of_lt hrun), extendRun_eq hg]
    exact ⟨h, rfl, rfl, rfl, rfl, rfl, rfl, rfl, rfl, rfl⟩
  case tenth =>
    intro h hg hrun
    rw [takeGrade_unavailable_tenth (countSecond plannedEnd x v r) h hg hrun]
    exact ⟨rfl, rfl, bookRecovery_books _ _ _ _⟩
  case stays =>
    rintro h rfl
    rw [takeGrade_unavailable_severe (countSecond plannedEnd x v r) h]
    exact ⟨h, rfl, bookUnavailable_books (r.run + 1) _⟩

end Sys2Proof.Machine
end

section
/-! PROOF. The charge of a recipient in the normal form (R177 to R180): what a quotient rounded up is, the bounds that a tariff
in range sets on the gross amount (R178), and the gross as the cap of the credit (R179). -/

namespace Sys2Proof.Machine

/-! ### A quotient rounded up -/

section
variable {a b c : Nat} (hb : 0 < b)
include hb

/-- A quotient rounded up is the least number whose product reaches the dividend. -/
theorem ceilDiv_le_iff : ceilDiv a b ≤ c ↔ a ≤ b * c := by
  rw [ceilDiv, Nat.div_le_iff_le_mul_add_pred hb]
  omega

theorem le_mul_ceilDiv : a ≤ b * ceilDiv a b := (ceilDiv_le_iff hb).mp (Nat.le_refl _)

theorem mul_ceilDiv_lt : b * ceilDiv a b < a + b :=
  calc b * ceilDiv a b ≤ a + b - 1 := Nat.mul_div_le (a + b - 1) b
    _ < a + b := Nat.sub_one_lt_of_lt (Nat.lt_add_left a hb)

theorem ceilDiv_pos (ha : 0 < a) : 0 < ceilDiv a b :=
  Nat.pos_of_mul_pos_left (Nat.lt_of_lt_of_le ha (le_mul_ceilDiv hb))

theorem ceilDiv_zero : ceilDiv 0 b = 0 := Nat.le_zero.mp ((ceilDiv_le_iff hb).mpr (Nat.zero_le _))

end

/-! ### The gross amount (R178) -/

section
variable {x : Tariff} (hx : TariffInRange x)
include hx

/-- The booked part of at most 720 minutes. -/
theorem bookedPart_le {minutes : Nat} (h : minutes ≤ 720) : minutes * x.rb ≤ 47185200 := by
  obtain ⟨hrb, -⟩ := hx
  exact Nat.mul_le_mul h hrb

/-- The overrun part of at most 120 minutes, before the division by 100. -/
theorem overrunProduct_le {minutes : Nat} (h : minutes ≤ 120) : minutes * x.rb * x.fo ≤ 3145680000 := by
  obtain ⟨hrb, -, hfo, -⟩ := hx
  exact Nat.mul_le_mul (Nat.mul_le_mul h hrb) hfo

theorem overrunPart_le {minutes : Nat} (h : minutes ≤ 120) : ceilDiv (minutes * x.rb * x.fo) 100 ≤ 31456800 :=
  (ceilDiv_le_iff (by decide)).mpr (overrunProduct_le hx h)

end

theorem grossAmount_of_free {x : Tariff} (h : x.rb = 0) (sb so : Nat) : grossAmount x sb so = 0 := by
  simp only [grossAmount, h, Nat.mul_zero, Nat.zero_mul, ceilDiv_zero (b := 100) (by decide)]

/-! ### The credit and the net amount (R179) -/

theorem creditAmount_le_gross (x : Tariff) (gross su sd : Nat) : creditAmount x gross su sd ≤ gross := Nat.min_le_right _ _

theorem normalCharge_net_add_credit (b : Booking) (r : RecipientMeter) :
    (normalCharge b r).net + (normalCharge b r).credit = (normalCharge b r).gross :=
  Nat.sub_add_cancel (creditAmount_le_gross ..)

/-! ### The statement -/

/-- Settles O57. The minutes, the overrun part and the two credits are the model's own quotients; the bounds on the booked
and overrun seconds bound the minutes, and these, with the tariff in range, bound every product. -/
theorem chargeIsComputedExactly : Obligations.ChargeIsComputedExactly := by
  intro b r hx hshort hlong hoverrun
  dsimp only
  have hbooked : ceilDiv (b.plannedEnd - b.start) 60 ≤ 720 := (ceilDiv_le_iff (by decide)).mpr (by omega)
  have hover : ceilDiv r.meters.overrun 60 ≤ 120 := (ceilDiv_le_iff (by decide)).mpr (by omega)
  refine ⟨?gross, ?credit, normalCharge_net_add_credit b r, ?free, decide_eq_true_iff, rfl, rfl, rfl, rfl⟩
  case gross =>
    refine ⟨ceilDiv (b.plannedEnd - b.start) 60, ceilDiv r.meters.overrun 60,
      ceilDiv (ceilDiv r.meters.overrun 60 * b.tariff.rb * b.tariff.fo) 100, rfl,
      le_mul_ceilDiv (by decide), mul_ceilDiv_lt (by decide), ceilDiv_pos (by decide) (by omega), hbooked,
      le_mul_ceilDiv (by decide), mul_ceilDiv_lt (by decide), hover,
      le_mul_ceilDiv (by decide), mul_ceilDiv_lt (by decide),
      bookedPart_le hx hbooked, overrunProduct_le hx hover, overrunPart_le hx hover, ?total, ?noOverrun⟩
    case total => exact Nat.add_le_add (bookedPart_le hx hbooked) (overrunPart_le hx hover)
    case noOverrun =>
      intro h
      have hminutes : ceilDiv r.meters.overrun 60 = 0 := by rw [h, ceilDiv_zero (by decide)]
      exact ⟨hminutes, by rw [hminutes, Nat.zero_mul, Nat.zero_mul, ceilDiv_zero (by decide)]⟩
  case credit =>
    exact ⟨_, _, Nat.mul_div_le _ 6000, Nat.lt_mul_div_succ _ (by decide), Nat.mul_div_le _ 6000,
      Nat.lt_mul_div_succ _ (by decide), rfl⟩
  case free =>
    intro h
    have hgross : (normalCharge b r).gross = 0 := grossAmount_of_free h _ _
    have hsum := normalCharge_net_add_credit b r
    omega

end Sys2Proof.Machine
end
